-- ==== Sys2Proof/Word.lean ====
section
/-! DEFINITION. The word and byte types of job memory (00 section 0.7.1), and the fixed-size bank used for
registers that come in numbered sets (00 section 0.7.4). -/

namespace Sys2Proof

/-- A word of job memory, bit 0 the least significant (00 section 0.7.1). -/
abbrev Word := BitVec 32

/-- One byte: a byte lane of a word, or a character of a field-line frame (R141). -/
abbrev Byte := BitVec 8

/-- A numbered set of like things. Index k stands for number k, or for number k + 1 where the spec counts from 1. -/
abbrev Bank (α : Type) (n : Nat) := Vector α n

end Sys2Proof
end

