-- ==== Sys2Proof/Syntax.lean ====
section
/-! DEFINITION. The commands of the block: one constructor for each row of spec/opcode_table.json. The table gives a
row no bits and no operands. The operands below are what the rules say comes from outside at that event. -/

namespace Sys2Proof

/-- One word of a host write: its four byte enables and its value (R171). -/
structure WriteWord where
  enables : BitVec 4
  value   : Word
  deriving DecidableEq, Repr

/-- A host access: a read of a number of words, or a write of words, at consecutive word addresses from a
22-bit start address (R171). Byte enables of a read do not change what is read, so a read carries none. -/
inductive HostAccess
  | read  (addr : BitVec 22) (count : Nat)
  | write (addr : BitVec 22) (words : List WriteWord)
  deriving DecidableEq, Repr

/-- The number of words of a host access. -/
def HostAccess.count : HostAccess → Nat
  | .read _ n => n
  | .write _ ws => ws.length

/-- A block that takes a unit event handed on by the motion unit. R6 leaves the order among them open. -/
inductive Taker
  | motion    -- the oven unit's taking of an entry to ADVANCING carried by the same event (R136)
  | track
  /-- Each screen station is a receiver of its own; index k is screen k + 1. -/
  | station (screen : Fin 16)
  | cues
  | oven
  | restart
  deriving DecidableEq, Repr

/-- Every taker, in the order the model uses for those an operand does not name (log 8). -/
def Taker.all : List Taker := [.motion, .track] ++ (List.finRange 16).map .station ++ [.cues, .oven, .restart]

/-- When the grant decision at a completion is made (R182, log 9): a request that arrives as the port becomes free "is
either present at the decision or arrives after it". -/
inductive Decision
  /-- At the completion, with the requests that the step itself makes. -/
  | withNew
  /-- At the completion, before the requests that the step itself makes. -/
  | beforeNew
  deriving DecidableEq, Repr

/-- The commands. An operand `decision` of a completion says when its grant decision is made. -/
inductive Instr
  /-- R1: the pair takes new levels. `order` is the order in which the blocks take the event (log 8). -/
  | encoderPulse (encA encB : Bool) (order : List Taker)
  | stopDetectExpiry
  | speedIntervalExpiry
  /-- R32: an edge of SEAM, rising or falling. -/
  | seamEdge (rising : Bool)
  | planWrite (decision : Decision)
  | planReadReturned (decision : Decision)
  | freeingWriteComplete (decision : Decision)
  | settingBurstReturned (decision : Decision)
  | settingsWrite (decision : Decision)
  | markPulseExpiry
  | mountWrite (decision : Decision)
  | remountRequest (decision : Decision)
  | trim (decision : Decision)
  /-- R106: index k is screen k + 1. -/
  | liftTimerExpiry (screen : Fin 16)
  | accountingTimerExpiry
  | cycleTimerExpiry
  | exchangeQuietReached
  /-- R145. `elapsed` is the time since the cycle's start in µs, for the last cycle duration (R143 note 1). -/
  | quietWaitTimeout (elapsed : Nat)
  | commandFrameSent
  | replyFirstCharacter
  | replyTimerExpiry (elapsed : Nat)
  /-- R142: the bytes received and whether any character lacked a valid stop bit. -/
  | frameClosed (bytes : List Byte) (framing : Bool) (elapsed : Nat)
  | recordBurstComplete (decision : Decision)
  | recordWord0Complete (decision : Decision)
  | outcomeSlotFree (decision : Decision)
  | stallTimerExpiry
  | statusTimerExpiry
  | statusBurstComplete (decision : Decision)
  | acknowledge (decision : Decision)
  | pageSelect (decision : Decision)
  | hostAccessPresented (access : HostAccess)
  | hostWordComplete (decision : Decision)
  | snapshotWindowWrite (decision : Decision)
  /-- R187, R1: the levels of ENC A and ENC B at the reset. -/
  | powerOnReset (encA encB : Bool)
  | resetLine (encA encB : Bool)
  | armingRequest (decision : Decision)
  | resultWordWritten (decision : Decision)
  | anchorBurstReturned (decision : Decision)
  | mountBurstReturned (decision : Decision)
  | snapshotReadReturned (decision : Decision)
  | outcomeMapReadReturned (decision : Decision)
  | snapshotBurstComplete (decision : Decision)
  | snapshotClosingComplete (decision : Decision)
  deriving DecidableEq, Repr

end Sys2Proof
end

