-- ==== Sys2Proof/WellFormed.lean ====
section
/-! DEFINITION. What makes a command one that the outside can give: the checks on its operands. -/

namespace Sys2Proof

/-- R171: a host access is one word or a burst of 2 to 8 words. -/
def HostAccess.wf (a : HostAccess) : Bool := 1 ≤ a.count && a.count ≤ 8

/-- R142: a frame holds at least the character that opens it, and closes at its eighth. -/
def frameWf (bytes : List Byte) : Bool := 1 ≤ bytes.length && bytes.length ≤ 8

/-- The order operand names every taker once (log 8). -/
def orderWf (order : List Taker) : Bool :=
  Taker.all.all (fun t => order.count t = 1) && order.length = Taker.all.length

/-- The checks of a command's operands. A command with no operand that can be wrong is well formed. -/
def Instr.wf : Instr → Bool
  | .encoderPulse _ _ order => orderWf order
  | .frameClosed bytes _ _ => frameWf bytes
  | .hostAccessPresented a => a.wf
  | .stopDetectExpiry | .speedIntervalExpiry | .seamEdge _ | .planWrite _ | .planReadReturned _
  | .freeingWriteComplete _ | .settingBurstReturned _ | .settingsWrite _ | .markPulseExpiry | .mountWrite _
  | .remountRequest _ | .trim _ | .liftTimerExpiry _ | .accountingTimerExpiry | .cycleTimerExpiry
  | .exchangeQuietReached | .quietWaitTimeout _ | .commandFrameSent | .replyFirstCharacter | .replyTimerExpiry _
  | .recordBurstComplete _ | .recordWord0Complete _ | .outcomeSlotFree _ | .stallTimerExpiry
  | .statusTimerExpiry | .statusBurstComplete _ | .acknowledge _ | .pageSelect _ | .hostWordComplete _
  | .snapshotWindowWrite _ | .powerOnReset _ _ | .resetLine _ _ | .armingRequest _ | .resultWordWritten _
  | .anchorBurstReturned _ | .mountBurstReturned _ | .snapshotReadReturned _ | .outcomeMapReadReturned _
  | .snapshotBurstComplete _ | .snapshotClosingComplete _ => true

end Sys2Proof
end

