-- ==== Sys2Proof/Config.lean ====
section
/-! DEFINITION. The constants the spec fixes for every part, and the free values of the model. -/

namespace Sys2Proof.Config

/-- The part's cookie value in anchor word 0 (R198, section 12.1). -/
def cookie : Word := 0x24160A00#32

/-- The start word WARM (R198, section 12.1). -/
def warmWord : Word := 0x0000574D#32

/-- The mask of closing words: the check is the identifier XOR this (00 section 0.7.5). -/
def checkMask : BitVec 16 := 0xB4D2#16

/-- The number of word addresses of job memory, 2^22 (00 section 0.7.1). -/
def memoryWords : Nat := 4194304

/-- The number of positions a 40-bit position can name (00 section 0.7.2). -/
def positions : Nat := 1099511627776

/-- The number of entries of the web track (R18). -/
def trackEntries : Nat := 64

/-- The number of places of the cue queue (R82). -/
def cuePlaces : Nat := 64

/-- The number of places of the retirement queue (R159). -/
def queuePlaces : Nat := 8

/-- The number of entries of the pending seam list (R33). -/
def seamPlaces : Nat := 4

/-- FREE VALUE (log 12). The position the part holds for a sum of positions that does not fit in 40 bits, as a
function of the position the sum was taken from and of the exact sum. Nothing constrains it. -/
opaque wrappedPosition : Nat → Nat → Nat

/-- FREE VALUE (log 29). The phase reference in the command frame of a screen unmounted since its exchange began, as a
function of the screen and of P. Nothing constrains it. -/
opaque unmountedPhase : Nat → Nat → Nat

end Sys2Proof.Config
end

