-- ==== Sys2Proof/Machine/State.lean ====
section
/-! DEFINITION. The state of the part as plain data, block by block, the reasons a step can stop, and the state after
reset. The state falls in five: `cfg`, the anchor data in force; `motion`, the motion unit without its cause set;
`blk`, every other block; `mem`, job memory; `pending`, the commands that wait. A block's operation has the type
`Ctx → Blocks → Blocks`: it reads the first two and can change neither them nor memory nor the queue. -/

namespace Sys2Proof.Machine

/-! ### Reasons to stop -/

/-- The reasons a step can stop with a fault. The spec gives the part none: no access and no event stops it. -/
inductive Fault
  /-- Raised by HOST_ACCESS_PRESENTED for an access of no words or of more than 8, which is no host access (R171).
  Safe: the processor cannot present one. -/
  | notAnAccess
  deriving DecidableEq, Repr

/-- The reasons a step can be refused. -/
inductive Refusal
  /-- Raised by the arm of a command that has no meaning in the model yet. Safe. -/
  | notModelled (mnemonic : String)
  deriving DecidableEq, Repr

/-! ### Anchor data in force (R189, section 12.1) -/

/-- The outcome policy (R161). -/
inductive Policy
  | holdLine
  | overwrite
  deriving DecidableEq, Repr

/-- The four classes of ALERT (R169). -/
structure AlertMask where
  outcomes : Bool
  trip     : Bool
  hold     : Bool
  report   : Bool
  deriving DecidableEq, Repr

/-- The anchor's values. Names follow section 12.1. Index k of an offset is screen or zone k + 1. -/
structure Anchor where
  planBase           : Nat
  planSlots          : Nat
  settingsBase       : Nat
  mountBase          : Nat
  outcomeBase        : Nat
  outcomeSlots       : Nat
  policy             : Policy
  statusBase         : Nat
  snapshotBase       : Nat
  screenCount        : Nat
  zoneCount          : Nat
  seamFalling        : Bool
  lineRate           : Nat
  screenOffset       : Bank Nat 16
  zoneEntry          : Bank Nat 8
  ovenExit           : Nat
  exitOffset         : Nat
  divisor            : Nat
  cyclePeriod        : Nat
  alert              : AlertMask
  detectorDistance   : Nat
  seamLength         : Nat
  minOrder           : Nat
  backlash           : Nat
  stopDetect         : Nat
  probeSpacing       : Nat
  standbySetpoint    : Nat
  stage1             : Nat
  stage2             : Nat
  replyTimeout       : Nat
  stallLimit         : Nat
  statusInterval     : Nat
  snapshotDistance   : Nat
  restartCorrection  : Int
  restartGap         : Nat
  deriving DecidableEq, Repr

/-- After a reset: divisor 1, backlash allowance 0, stop-detect time 2,000 ms (R9); no windows (R185), no zones
(R140), no line parameters (R156). -/
def Anchor.reset : Anchor where
  planBase := 0
  planSlots := 0
  settingsBase := 0
  mountBase := 0
  outcomeBase := 0
  outcomeSlots := 0
  policy := .holdLine
  statusBase := 0
  snapshotBase := 0
  screenCount := 0
  zoneCount := 0
  seamFalling := false
  lineRate := 0
  screenOffset := .replicate 16 0
  zoneEntry := .replicate 8 0
  ovenExit := 0
  exitOffset := 0
  divisor := 1
  cyclePeriod := 0
  alert := ⟨false, false, false, false⟩
  detectorDistance := 0
  seamLength := 0
  minOrder := 0
  backlash := 0
  stopDetect := 2000
  probeSpacing := 0
  standbySetpoint := 0
  stage1 := 0
  stage2 := 0
  replyTimeout := 0
  stallLimit := 0
  statusInterval := 0
  snapshotDistance := 0
  restartCorrection := 0
  restartGap := 0

/-! ### Motion unit (01) -/

/-- The motion state (R10). -/
inductive MotionState
  | halted
  | advancing
  | backing
  deriving DecidableEq, Repr

/-- The motion unit, without the latched cause set. A timer is none while stopped and some t while it runs with the
time t it was started with. -/
structure Motion where
  encA       : Bool
  encB       : Bool
  encErrors  : Nat
  residue    : Int
  p          : Nat
  h          : Nat
  lostUnits  : Nat
  state      : MotionState
  stopTimer  : Option Nat
  speed      : Nat
  speedCount : Nat
  deriving DecidableEq, Repr

/-- R1, R4, R9, R10, R12, with the levels of the encoder lines at the reset. -/
def Motion.reset (encA encB : Bool) : Motion where
  encA := encA
  encB := encB
  encErrors := 0
  residue := 0
  p := 0
  h := 0
  lostUnits := 0
  state := .halted
  stopTimer := none
  speed := 0
  speedCount := 0

/-- What a block's operation may read of the rest of the part: the anchor data in force and the motion unit. -/
structure Ctx where
  cfg    : Anchor
  motion : Motion
  deriving DecidableEq, Repr

/-! ### Latched cause set (R13, R14) -/

/-- The level of a cause (00 section 0.7.7). -/
inductive Level
  | trip
  | hold
  | report
  deriving DecidableEq, Repr

/-- The kinds of cause, in the order of their numbers (R14). -/
inductive CauseKind
  | seamUnlifted | seamOverflow | liftTimeout | liftFault | trackUncertain | positionLimit | ovenVent
  | outcomeLost | moduleLost | trackFull | cacheFull | starvedHold | register | cueOverflow | moduleFault
  | outcomeBacklog | starved | orderRejected | planOverwrite | planOutOfOrder | planBadClose | pasteLow
  | ovenStandby | undercure | overcure | mountRefused
  deriving DecidableEq, Repr

/-- A latched entry: its level, its source 0..255, and its raise count 1..255 (R13). -/
structure Latched where
  level  : Level
  source : Nat
  count  : Nat
  deriving DecidableEq, Repr

/-- The latched cause set: one entry for each kind number, none while clear (R13). -/
abbrev CauseSet := Bank (Option Latched) 26

/-! ### Track unit (02) -/

inductive SegKind
  | print | blank | seam
  deriving DecidableEq, Repr

inductive SegOrigin
  | order | starved | seam | continuation
  deriving DecidableEq, Repr

/-- How a setting reference stands to the cache. `held`: it counts on its entry. `restoring e`: it counts on entry e,
whose restore claim has not completed. `lost`: its restore claim failed, and its setting is absent (R196). -/
inductive RefLink
  | held
  | restoring (entry : Fin 8)
  | lost
  deriving DecidableEq, Repr

/-- A setting reference: setting number, cache entry and version (R19). -/
structure SettingRef where
  number  : Nat
  entry   : Fin 8
  version : Nat
  link    : RefLink
  deriving DecidableEq, Repr

/-- A continuation owed (R19). -/
structure ContOwed where
  orderId    : BitVec 16
  tag        : Word
  setting    : Option SettingRef
  plannedEnd : Nat
  remaining  : Nat
  holdAtEnd  : Bool
  deriving DecidableEq, Repr

/-- The segment flags of Table 2-1. -/
structure SegFlags where
  late              : Bool := false
  split             : Bool := false
  extended          : Bool := false
  seamUnlifted      : Bool := false
  cuesLost          : Bool := false
  positionUncertain : Bool := false
  restored          : Bool := false
  coverageShort     : Bool := false
  holdAtEnd         : Bool := false
  deriving DecidableEq, Repr

inductive MarkCode
  | notReached | notUsed | printed | partly | missed
  deriving DecidableEq, Repr

/-- A screen mark with its REGISTER flag (R19). -/
structure ScreenMark where
  code     : MarkCode
  register : Bool
  deriving DecidableEq, Repr

/-- The place of a probe (R126): before the oven, in zone k + 1, or after it. -/
inductive Place
  | before
  | zone (k : Fin 8)
  | after
  deriving DecidableEq, Repr

/-- A probe's or a segment's cure result (R126, R132). -/
inductive Verdict
  | pending | cured | unverified | undercured | overcured | notApplicable
  deriving DecidableEq, Repr

/-- A cure probe (R126). -/
structure Probe where
  rel        : Nat
  place      : Place
  cure       : Nat
  scorch     : Nat
  unverified : Nat
  verdict    : Verdict
  cap        : Bool
  deriving DecidableEq, Repr

/-- An entry of a segment's mark list (R93). -/
structure MarkEntry where
  position : Int
  code     : Nat
  deriving DecidableEq, Repr

/-- A segment of the web track (R19). Its length is none while open: it is ENTERING then, IN TRANSIT after. -/
structure Segment where
  seq          : Nat
  kind         : SegKind
  origin       : SegOrigin
  orderId      : Option (BitVec 16)
  tag          : Option Word
  setting      : Option SettingRef
  head         : Nat
  length       : Option Nat
  plannedEnd   : Option Nat
  contOwed     : Option ContOwed
  flags        : SegFlags
  marks        : Bank ScreenMark 16
  worst        : Bank Nat 16
  probes       : List Probe
  markList     : List MarkEntry
  furtherMarks : Nat
  verdict      : Verdict
  /-- It was closed by the truncation of R34 (R88, R94, log 24). -/
  truncated    : Bool
  /-- A probe of it has received UNDERCURED, or OVERCURED, be it held still or removed (R132, log 51). -/
  gainedUnder  : Bool
  gainedOver   : Bool
  deriving DecidableEq, Repr

/-- The boundary record of the ENTERING segment (R24). The position of a DEFERRED boundary is H. -/
inductive Boundary
  | opened (due : Option Nat)
  | deferred (forCache : Bool)
  | waiting (b : Nat)
  deriving DecidableEq, Repr

/-- An entry of the pending seam list: PENDING, or ABSORBED by the segment of a sequence number (R33). -/
structure PendingSeam where
  due        : Nat
  absorbedBy : Option Nat
  deriving DecidableEq, Repr

structure Track where
  segs          : List Segment
  boundary      : Boundary
  seams         : List PendingSeam
  debounce      : Option Nat
  seqCounter    : Nat
  starvedHold   : Bool
  ignoredEdges  : Nat
  droppedSeams  : Nat
  absorbedSeams : Nat
  discarded     : Nat
  /-- The old position of a warm arming: fabric below it is recorded as passed (R195, log 46). -/
  passed        : Nat
  deriving DecidableEq, Repr

/-- R45. -/
def Track.reset : Track where
  segs := []
  boundary := .opened none
  seams := []
  debounce := none
  seqCounter := 0
  starvedHold := false
  ignoredEdges := 0
  droppedSeams := 0
  absorbedSeams := 0
  discarded := 0
  passed := 0

/-! ### Plan reader (03) -/

inductive OrderKind
  | printLength | printUntilSeam | blankLength
  deriving DecidableEq, Repr

inductive SettingState
  | none | fetching | waitingEntry | ready
  deriving DecidableEq, Repr

/-- The staged order (R58), or an order taken and not yet staged. -/
structure StagedOrder where
  kind          : OrderKind
  align         : Bool
  holdAtEnd     : Bool
  settingNumber : Nat
  length        : Nat
  tag           : Word
  orderId       : BitVec 16
  slot          : Nat
  state         : SettingState
  ref           : Option (Fin 8 × Nat)
  deriving DecidableEq, Repr

/-- The reason of a rejection record (R55, R158). -/
inductive RejectReason
  | badClose | badKind | badLength | badSettingNumber | settingBad | settingUnstable
  deriving DecidableEq, Repr

inductive TakeState
  | idle | reading | freeing | staged
  deriving DecidableEq, Repr

/-- The result of validation, held from the read until the freeing write completes (R55, R56). -/
inductive TakeResult
  | valid (o : StagedOrder)
  | invalid (orderId : BitVec 16) (reason : RejectReason)
  deriving DecidableEq, Repr

structure Plan where
  postIndex : Nat
  takeIndex : Nat
  posted    : Nat
  take      : TakeState
  result    : Option TakeResult
  staged    : Option StagedOrder
  taken     : Nat
  rejected  : Nat
  deriving DecidableEq, Repr

/-- R63. -/
def Plan.reset : Plan where
  postIndex := 0
  takeIndex := 0
  posted := 0
  take := .idle
  result := none
  staged := none
  taken := 0
  rejected := 0

/-! ### Setting cache (04) -/

inductive CueAction
  | lift | lower | pasteHold | pasteResume | zoneSet | mark
  deriving DecidableEq, Repr

/-- A cue of a setting's cue list (R66). `tail` is its reference: TAIL, or HEAD. -/
structure Cue where
  action : CueAction
  target : Nat
  tail   : Bool
  offset : Int
  value  : Nat
  deriving DecidableEq, Repr

/-- A decoded print setting (R65). -/
structure Setting where
  engage     : BitVec 16
  paste      : Bank Nat 16
  setpoint   : Bank Nat 8
  air        : Bank Nat 8
  cureTemp   : Nat
  cureTime   : Nat
  scorchTemp : Nat
  scorchTime : Nat
  cues       : List Cue
  deriving DecidableEq, Repr

inductive EntryState
  | free | fetching | ready | superseded
  deriving DecidableEq, Repr

/-- A cache entry (R68). -/
structure CacheEntry where
  state    : EntryState
  number   : Nat
  version  : Nat
  count    : Nat
  restarts : Nat
  contents : Option Setting
  deriving DecidableEq, Repr

/-- R81: FREE, no contents, version 0, count 0. -/
def CacheEntry.clear : CacheEntry := ⟨.free, 0, 0, 0, 0, none⟩

inductive SettingDetail
  | validity | engage | paste | profile | cure | terminator | cueAction | cueTarget | cueOffset | cueValue
  deriving DecidableEq, Repr

/-- The last setting fault (R67). -/
structure SettingFault where
  number : Nat
  detail : SettingDetail
  cue    : Option Nat
  deriving DecidableEq, Repr

structure Cache where
  entries    : Bank CacheEntry 8
  useOrder   : List (Fin 8)
  waiting    : Option Nat
  /-- The entries under fetch, in the order in which their fetches began (R73). -/
  fetchQueue : List (Fin 8)
  /-- The words of the first fetch already read. -/
  words      : List Word
  lastFault  : Option SettingFault
  fetches    : Nat
  restarts   : Nat
  supersedes : Nat
  failures   : Nat
  deriving DecidableEq, Repr

/-- R81. -/
def Cache.reset : Cache where
  entries := .replicate 8 .clear
  useOrder := List.finRange 8
  waiting := none
  fetchQueue := []
  words := []
  lastFault := none
  fetches := 0
  restarts := 0
  supersedes := 0
  failures := 0

/-! ### Cue queue (05) -/

/-- A pending cue (R82). -/
structure PendingCue where
  due    : Nat
  cue    : Cue
  seq    : Nat
  late   : Bool
  number : BitVec 32
  deriving DecidableEq, Repr

structure Cues where
  queue         : List PendingCue
  insertions    : BitVec 32
  fired         : Nat
  late          : Nat
  dropped       : Nat
  cancelled     : Nat
  stray         : Nat
  warmDiscarded : Nat
  markPulse     : Bool
  deriving DecidableEq, Repr

/-- R96. -/
def Cues.reset : Cues where
  queue := []
  insertions := 0
  fired := 0
  late := 0
  dropped := 0
  cancelled := 0
  stray := 0
  warmDiscarded := 0
  markPulse := false

/-! ### Screen stations (06) -/

/-- The mount data of one screen (R97). -/
structure MountRecord where
  mounted     : Bool
  repeatLen   : Nat
  origin      : Nat
  lead        : Nat
  lag         : Nat
  tolerance   : Nat
  persistence : Nat
  deriving DecidableEq, Repr

def MountRecord.unmounted : MountRecord := ⟨false, 0, 0, 0, 0, 0, 0⟩

inductive FaultReason
  | start | unexpected | timeout | moduleLost
  deriving DecidableEq, Repr

/-- The states of the lift machine (R104). -/
inductive LiftState
  | lifted | lowering | engaged | lifting
  | fault (reason : FaultReason)
  deriving DecidableEq, Repr

inductive Want
  | up | down
  deriving DecidableEq, Repr

/-- What the track holds at a fabric coordinate (R101). -/
inductive Holding
  | segment (seq : Nat)
  | gap
  | before
  deriving DecidableEq, Repr

/-- A trim: phase in 0.01 mm, paste in per mille (R111). -/
structure Trim where
  phase : Int
  paste : Int
  deriving DecidableEq, Repr

/-- One screen station (R118). -/
structure Station where
  mount       : MountRecord
  lift        : LiftState
  liftTimer   : Option Nat
  want        : Want
  holding     : Holding
  wanted      : Nat
  engaged     : Nat
  override    : Option Nat
  pasteHold   : Option Nat
  trim        : Trim
  pendingTrim : Option Trim
  outOfReg    : Nat
  worst       : Nat
  seen        : Bool
  deriving DecidableEq, Repr

/-- R118, for a screen that is not mounted. -/
def Station.reset : Station where
  mount := .unmounted
  lift := .lifted
  liftTimer := none
  want := .up
  holding := .before
  wanted := 0
  engaged := 0
  override := none
  pasteHold := none
  trim := ⟨0, 0⟩
  pendingTrim := none
  outOfReg := 0
  worst := 0
  seen := false

inductive MountDetail
  | badCheck | moving | range | badLead | notLifted | trimUnmounted | trimRange
  deriving DecidableEq, Repr

structure Stations where
  image           : Bank Word 96
  station         : Bank Station 16
  liftTimeout     : Nat
  refScreen       : Nat
  generation      : BitVec 16
  lastRefusal     : Option (MountDetail × Nat)
  remounts        : Nat
  refusedRemounts : Nat
  trimsTaken      : Nat
  trimsRefused    : Nat
  liftTimeouts    : Nat
  liftFaults      : Nat
  seamUnlifted    : Nat
  deriving DecidableEq, Repr

/-- R118. The spec gives no value for the shared items and for the fields of an unmounted record: they are 0 (log 43). -/
def Stations.reset : Stations where
  image := .replicate 96 0
  station := .replicate 16 .reset
  liftTimeout := 0
  refScreen := 0
  generation := 0
  lastRefusal := none
  remounts := 0
  refusedRemounts := 0
  trimsTaken := 0
  trimsRefused := 0
  liftTimeouts := 0
  liftFaults := 0
  seamUnlifted := 0

/-! ### Oven unit (07) -/

inductive SetpointSource
  | profile | cue | held | standby
  deriving DecidableEq, Repr

inductive ZoneMode
  | run | standby | vent
  deriving DecidableEq, Repr

/-- A zone record (R120). The module state is the field line's entry of the zone (R125). -/
structure Zone where
  holding  : Holding
  recorded : Option Nat
  runSet   : Nat
  source   : SetpointSource
  runAir   : Nat
  mode     : ZoneMode
  temp     : Nat
  deriving DecidableEq, Repr

structure Oven where
  zone          : Bank Zone 8
  timerRunning  : Bool
  dwellCount    : Nat
  dwellStage    : Nat
  cured         : Nat
  unverified    : Nat
  undercured    : Nat
  overcured     : Nat
  standbys      : Nat
  vents         : Nat
  coverageShort : Nat
  deriving DecidableEq, Repr

/-- R140. -/
def Oven.reset : Oven where
  zone := .replicate 8 ⟨.before, none, 0, .held, 0, .run, 0⟩
  timerRunning := false
  dwellCount := 0
  dwellStage := 0
  cured := 0
  unverified := 0
  undercured := 0
  overcured := 0
  standbys := 0
  vents := 0
  coverageShort := 0

/-! ### Field line controller (08) -/

inductive MissReason
  | noReply | lineBusy | framing | length | crc | address | content
  deriving DecidableEq, Repr

inductive LiftPosition
  | up | down | moving
  deriving DecidableEq, Repr

/-- What a good reply held (R147, R148). -/
inductive GoodReply
  | screen (position : LiftPosition) (phaseError : Int) (fault : Bool)
  | zone (temp : Nat) (fault : Bool)
  deriving DecidableEq, Repr

/-- An entry of the module table (R148). -/
structure Module where
  online      : Bool
  misses      : Nat
  goods       : Nat
  totalMisses : Nat
  lastMiss    : Option MissReason
  lastGood    : Option GoodReply
  faultMarker : Bool
  selector    : Bool
  item0       : Option Nat
  item1       : Option Nat
  deriving DecidableEq, Repr

/-- R156. -/
def Module.reset : Module := ⟨false, 0, 0, 0, none, none, false, false, none, none⟩

/-- The phases of an exchange (R145). -/
inductive ExchangePhase
  | quiet | sending | awaiting | receiving
  deriving DecidableEq, Repr

/-- The exchange in progress: the module index (address less 1), the phase, and the selector its command carries. -/
structure Exchange where
  module   : Fin 24
  phase    : ExchangePhase
  selector : Bool
  deriving DecidableEq, Repr

/-- The mount data of a screen that its phase reference is computed with (R100, R109). -/
structure PhaseData where
  repeatLen : Nat
  origin    : Nat
  deriving DecidableEq, Repr

structure FieldLine where
  module       : Bank Module 24
  /-- What the command frames of the link cycle in progress compute phase references with (R100). -/
  phase        : Bank PhaseData 16
  exchange     : Option Exchange
  lineDriven   : Bool
  command      : List Byte
  cycleTimer   : Option Nat
  replyTimer   : Option Nat
  startOwed    : Bool
  cycles       : BitVec 32
  overruns     : Nat
  lastDuration : Nat
  missCounts   : Bank Nat 7
  lateFrames   : Nat
  deriving DecidableEq, Repr

/-- R156. The spec gives no value for the phase data before a link cycle has run: they are 0 (log 43). -/
def FieldLine.reset : FieldLine where
  module := .replicate 24 .reset
  phase := .replicate 16 ⟨0, 0⟩
  exchange := none
  lineDriven := false
  command := []
  cycleTimer := none
  replyTimer := none
  startOwed := false
  cycles := 0
  overruns := 0
  lastDuration := 0
  missCounts := .replicate 7 0
  lateFrames := 0

/-! ### Report unit (09) -/

/-- A run of full words to write at a word offset inside a window. -/
structure Burst where
  offset : Nat
  words  : List Word
  deriving DecidableEq, Repr

/-- A record of the retirement queue, built when it arrived (R158): its kind and its 32 words. -/
structure OutRecord where
  segment : Bool
  words   : List Word
  deriving DecidableEq, Repr

structure Report where
  writeIndex        : Nat
  full              : List Bool
  queue             : List OutRecord
  /-- The accesses of the record write in progress still to complete (R161). -/
  recordWrite       : Option (List Burst)
  retired           : BitVec 32
  segmentsWritten   : BitVec 32
  rejectionsWritten : BitVec 32
  outcomesLost      : BitVec 32
  rejectionsLost    : BitVec 32
  overwritten       : BitVec 32
  rejections        : BitVec 32
  stallsBegun       : Nat
  stallsFilled      : Nat
  stallsExpired     : Nat
  stallTimer        : Option Nat
  acks              : Nat
  statusTimer       : Option Nat
  rewriteOwed       : Bool
  rewriteNumber     : BitVec 32
  /-- The bursts of the rewrite in progress still to complete (R166). -/
  rewrite           : Option (List Burst)
  page              : Nat
  deriving DecidableEq, Repr

/-- R170. -/
def Report.reset : Report where
  writeIndex := 0
  full := []
  queue := []
  recordWrite := none
  retired := 0
  segmentsWritten := 0
  rejectionsWritten := 0
  outcomesLost := 0
  rejectionsLost := 0
  overwritten := 0
  rejections := 0
  stallsBegun := 0
  stallsFilled := 0
  stallsExpired := 0
  stallTimer := none
  acks := 0
  statusTimer := none
  rewriteOwed := false
  rewriteNumber := 0
  rewrite := none
  page := 0

/-! ### Path unit (10) -/

/-- The internal requesters, in the order of their rank (R181). -/
inductive Requester
  | restart | cache | plan | report
  deriving DecidableEq, Repr

/-- What an internal access is for (R181). -/
inductive AccessKind
  | anchorRead | mountRead | snapshotRead | mapRead | resultWrite | startWrite | snapshotWrite | snapshotClosing
  | settingRead | planRead | freeingWrite | recordBurst | recordWord0 | statusBurst
  deriving DecidableEq, Repr

/-- An internal access: a read of `count` words, or a full-word write of `data` (R173). -/
structure Access where
  kind  : AccessKind
  addr  : Nat
  count : Nat
  data  : Option (List Word)
  deriving DecidableEq, Repr

/-- What the memory port carries. A reset abandons an internal access but does not stop it (R184). -/
inductive MemPort
  | free
  | host
  | internal (access : Access) (abandoned : Bool)
  deriving DecidableEq, Repr

/-- The judgement of a write word made before it is carried (R175). -/
inductive WordJudgement
  | pass
  | dropPlan (slot : Nat)
  | dropSnapshot
  deriving DecidableEq, Repr

/-- The states of the host access (R172). CARRYING holds the index of the word carried and its judgement. -/
inductive HostPort
  | empty
  | stalled (access : HostAccess)
  | portWait (access : HostAccess)
  | carrying (access : HostAccess) (index : Nat) (judged : WordJudgement)
  deriving DecidableEq, Repr

structure Path where
  host     : HostPort
  readData : List Word
  freeze   : Bool
  port     : MemPort
  slots    : Bank (Option Access) 4
  hostRun  : Nat
  dropped  : Nat
  deriving DecidableEq, Repr

/-- R185. -/
def Path.reset : Path where
  host := .empty
  readData := []
  freeze := false
  port := .free
  slots := .replicate 4 none
  hostRun := 0
  dropped := 0

/-! ### Restart unit (11) -/

/-- The part state (R186). -/
inductive PartState
  | dormant
  | arming (fromArmed : Bool)
  | armed
  deriving DecidableEq, Repr

/-- The result codes (R188). -/
inductive ResultCode
  | pending | refusedBusy | badCookie | badCheck | badWindows | badGeometry | badMount | armedCold | armedWarm
  | armedColdTrackLost
  deriving DecidableEq, Repr

/-- A piece of the restart unit's work (R188). -/
inductive Work
  | result (code : ResultCode) (id : BitVec 16)
  | startWord
  | readArming
  | snapshot
  | outcomeMap
  deriving DecidableEq, Repr

inductive ArmPhase
  | anchor | mount | snapshot
  deriving DecidableEq, Repr

/-- The arming in progress, with the words read so far (R189, R194). -/
structure Arming where
  id       : BitVec 16
  phase    : ArmPhase
  anchor   : List Word
  mount    : List Word
  snapshot : List Word
  deriving DecidableEq, Repr

/-- The snapshot write in progress: its generation and the accesses still to complete (R192). -/
structure SnapshotWrite where
  generation : BitVec 16
  rest       : List Burst
  deriving DecidableEq, Repr

structure Restart where
  part            : PartState
  generation      : BitVec 16
  snapshotPending : Bool
  distanceMark    : Nat
  moved           : Bool
  work            : List Work
  arming          : Option Arming
  writing         : Option SnapshotWrite
  /-- The next outcome slot to read at a warm arming, and the identifier its ARMED_WARM answers (R196). -/
  mapNext         : Option (Nat × BitVec 16)
  correctedH      : Nat
  deriving DecidableEq, Repr

/-- R197. -/
def Restart.reset : Restart where
  part := .dormant
  generation := 0
  snapshotPending := false
  distanceMark := 0
  moved := false
  work := []
  arming := none
  writing := none
  mapNext := none
  correctedH := 0

/-! ### The whole state -/

/-- Every block but the motion unit's position and speed. -/
structure Blocks where
  causes   : CauseSet
  track    : Track
  plan     : Plan
  cache    : Cache
  cues     : Cues
  stations : Stations
  oven     : Oven
  field    : FieldLine
  report   : Report
  path     : Path
  restart  : Restart
  deriving DecidableEq, Repr

/-- R17, R45, R63, R81, R96, R118, R140, R156, R170, R185, R197. -/
def Blocks.reset : Blocks where
  causes := .replicate 26 none
  track := .reset
  plan := .reset
  cache := .reset
  cues := .reset
  stations := .reset
  oven := .reset
  field := .reset
  report := .reset
  path := .reset
  restart := .reset

/-- Job memory: bytes listed by key 4 × word address + lane (log 1, log 2). -/
abbrev Memory := List Host.Cell

/-- The part, job memory behind it, and the commands that wait, first in first out; and, as the model's own field, which
commands come at one moment (log 9). -/
structure State where
  cfg     : Anchor
  motion  : Motion
  blk     : Blocks
  mem     : Memory
  pending : List Instr
  /-- One entry for each coming step that a grant decision can end: the next command's event comes at the same moment.
  Past the last entry none does. -/
  moments : List Bool
  deriving DecidableEq, Repr

/-- The machine right after power-on reset: every block at the value its chapter gives, both encoder lines low
(log 7), nothing listed in job memory (log 1), no command waiting and none at another's moment (log 9). -/
def State.reset : State where
  cfg := .reset
  motion := .reset false false
  blk := .reset
  mem := []
  pending := []
  moments := []

/-- What the blocks' operations read of a state. -/
def State.ctx (s : State) : Ctx := ⟨s.cfg, s.motion⟩

/-! ### Updates of one part of the state -/

def State.setCfg (s : State) (c : Anchor) : State := { s with cfg := c }
def State.setMotion (s : State) (m : Motion) : State := { s with motion := m }
def State.setBlk (s : State) (b : Blocks) : State := { s with blk := b }
def State.setMem (s : State) (m : Memory) : State := { s with mem := m }
def State.setPending (s : State) (q : List Instr) : State := { s with pending := q }
def State.setMoments (s : State) (q : List Bool) : State := { s with moments := q }

def Blocks.setCauses (b : Blocks) (x : CauseSet) : Blocks := { b with causes := x }
def Blocks.setTrack (b : Blocks) (x : Track) : Blocks := { b with track := x }
def Blocks.setPlan (b : Blocks) (x : Plan) : Blocks := { b with plan := x }
def Blocks.setCache (b : Blocks) (x : Cache) : Blocks := { b with cache := x }
def Blocks.setCues (b : Blocks) (x : Cues) : Blocks := { b with cues := x }
def Blocks.setStations (b : Blocks) (x : Stations) : Blocks := { b with stations := x }
def Blocks.setOven (b : Blocks) (x : Oven) : Blocks := { b with oven := x }
def Blocks.setField (b : Blocks) (x : FieldLine) : Blocks := { b with field := x }
def Blocks.setReport (b : Blocks) (x : Report) : Blocks := { b with report := x }
def Blocks.setPath (b : Blocks) (x : Path) : Blocks := { b with path := x }
def Blocks.setRestart (b : Blocks) (x : Restart) : Blocks := { b with restart := x }

end Sys2Proof.Machine
end

