-- ==== Sys2Proof/Machine/Bits.lean ====
section
/-! DEFINITION. Fields of words, closing words, the field line's CRC, saturating counts, positions, and updates of one
entry of a bank. -/

namespace Sys2Proof.Machine

/-! ### Fields of words (R198) -/

/-- The unsigned field of `n` bits from bit `lo` upward. -/
def fld (w : Word) (lo n : Nat) : Nat := (w.toNat >>> lo) % 2 ^ n

/-- The value of an `n`-bit two's complement number. -/
def signed (n v : Nat) : Int := if v < 2 ^ (n - 1) then (v : Int) else (v : Int) - 2 ^ n

/-- The signed field of `n` bits from bit `lo` upward. -/
def sfld (w : Word) (lo n : Nat) : Int := signed n (fld w lo n)

/-- Bit `i` of a word. -/
def bit (w : Word) (i : Nat) : Bool := w.getLsbD i

/-- The `n`-bit two's complement of a number. -/
def twos (n : Nat) (v : Int) : Nat := (v % 2 ^ n).toNat

def boolNat (b : Bool) : Nat := if b then 1 else 0

/-- The word whose listed fields (lowest bit, width, value) hold their values modulo 2 to the width, other bits zero. -/
def pack : List (Nat × Nat × Nat) → Word
  | [] => 0
  | (lo, n, v) :: r => BitVec.ofNat 32 ((v % 2 ^ n) <<< lo) ||| pack r

/-- A 40-bit position from its low word and its high part (00 section 0.7.1). -/
def pos40 (low : Word) (high : Nat) : Nat := low.toNat + high * 4294967296

/-- The low word and the high part of a 40-bit position. -/
def low32 (p : Nat) : Word := BitVec.ofNat 32 p
def high8 (p : Nat) : Nat := p / 4294967296 % 256

/-! ### Closing words (00 section 0.7.5) -/

/-- The identifier in the low half of a closing word. -/
def closingId (w : Word) : BitVec 16 := w.extractLsb' 0 16

/-- A closing word is valid when its high half equals its low half XOR 0xB4D2. -/
def validClosing (w : Word) : Bool := w.extractLsb' 16 16 == closingId w ^^^ Config.checkMask

/-- The closing word of an identifier. -/
def closingWord (id : BitVec 16) : Word := (id ^^^ Config.checkMask) ++ id

/-! ### CRC-8 of the field line (00 section 0.7.6, R200) -/

/-- One shift of the register. -/
def crcShift (r : Byte) : Byte := if r.getLsbD 7 then (r <<< 1) ^^^ 0x07#8 else r <<< 1

/-- The register after one byte. -/
def crcByte (r b : Byte) : Byte :=
  crcShift (crcShift (crcShift (crcShift (crcShift (crcShift (crcShift (crcShift (r ^^^ b))))))))

/-- The CRC-8 over bytes, from 0x00. -/
def crc8 (bytes : List Byte) : Byte := bytes.foldl crcByte 0x00#8

def byteOf (v : Nat) : Byte := BitVec.ofNat 8 v

/-- Two bytes, most significant first, as a number. -/
def beNat (hi lo : Byte) : Nat := hi.toNat * 256 + lo.toNat

/-! ### Counts and positions -/

/-- One more, staying at the maximum (00 section 0.7.3). -/
def satInc (limit n : Nat) : Nat := if n < limit then n + 1 else n

def inc8 (n : Nat) : Nat := satInc 255 n
def inc16 (n : Nat) : Nat := satInc 65535 n
def inc32 (n : Nat) : Nat := satInc 4294967295 n

/-- An addition that saturates. -/
def satAdd (limit n k : Nat) : Nat := if n + k < limit then n + k else limit

/-- The position the part holds for a sum. A sum that fits 40 bits is itself. For one that does not, the spec states no
value: it is a free value, held to the positions beyond `base` that 40 bits still name. Where `base` is the last
position, 2^40 − 1, 40 bits name none beyond it, and the exact sum is held, which H never reaches (log 12, DESIGN
CHOICE). -/
def position (base sum : Nat) : Nat :=
  if sum < Config.positions ∨ Config.positions ≤ base + 1 then sum
  else min (Config.positions - 1) (max (base + 1) (Config.wrappedPosition base sum))

/-! ### Banks -/

/-- A bank with one entry changed. -/
def Bank.modify {α : Type} {n : Nat} (v : Bank α n) (i : Fin n) (f : α → α) : Bank α n := v.set i (f v[i])

/-- A bank given entry by entry. -/
def Bank.tabulate {α : Type} {n : Nat} (f : Fin n → α) : Bank α n := ⟨⟨List.ofFn f⟩, by simp⟩

/-- The screens, the zones, the modules, in ascending order. -/
def screens : List (Fin 16) := List.finRange 16
def zones : List (Fin 8) := List.finRange 8
def modules : List (Fin 24) := List.finRange 24

end Sys2Proof.Machine
end

