-- ==== Sys2Proof/Machine/Ops.lean ====
section
/-! DEFINITION. Named operations over job memory, over the memory port and its arbiter, and over the windows. -/

namespace Sys2Proof.Machine

/-! ### Job memory -/

/-- What an unlisted byte of job memory reads as. DESIGN CHOICE: the spec gives job memory no contents (log 1). -/
def Memory.unlisted : Byte := 0

/-- The byte at a key. -/
def Memory.readByte : Memory → Nat → Byte
  | [], _ => Memory.unlisted
  | (k, v) :: r, a => if k = a then v else Memory.readByte r a

/-- Memory with one byte written, in canonical form. -/
def Memory.writeByte : Memory → Nat → Byte → Memory
  | [], a, v => if v = Memory.unlisted then [] else [(a, v)]
  | (k, x) :: r, a, v =>
    if a < k then (if v = Memory.unlisted then (k, x) :: r else (a, v) :: (k, x) :: r)
    else if a = k then (if v = Memory.unlisted then r else (a, v) :: r)
    else (k, x) :: Memory.writeByte r a v

/-- Every key of the list lies above a bound, keys rise, and no listed byte equals an unlisted one. -/
def Memory.wfAbove : Nat → Memory → Bool
  | _, [] => true
  | lo, (k, v) :: r => decide (lo ≤ k) && decide (v ≠ Memory.unlisted) && Memory.wfAbove (k + 1) r

/-- The canonical form: addresses strictly rising, no entry equal to what an unlisted address reads as. -/
def Memory.wf (m : Memory) : Bool := Memory.wfAbove 0 m

/-- The word address that a number names: word addresses are 22 bits wide (00 section 0.7.1, R171). -/
def wordAddr (a : Nat) : Nat := a % Config.memoryWords

/-- The key of byte lane `i` of the word at address `a` (log 2). -/
def laneKey (a i : Nat) : Nat := 4 * wordAddr a + i

/-- The word at a word address: lane k holds bits 8k to 8k + 7 (log 2). -/
def Memory.readWord (m : Memory) (a : Nat) : Word :=
  m.readByte (laneKey a 3) ++ m.readByte (laneKey a 2) ++ m.readByte (laneKey a 1) ++ m.readByte (laneKey a 0)

/-- One lane of a write: written when its byte enable is set (R171). -/
def Memory.writeLane (a : Nat) (enables : BitVec 4) (w : Word) (m : Memory) (i : Nat) : Memory :=
  if enables.getLsbD i then m.writeByte (laneKey a i) (w.extractLsb' (8 * i) 8) else m

/-- A word written with byte enables. -/
def Memory.writeWord (m : Memory) (a : Nat) (enables : BitVec 4) (w : Word) : Memory :=
  [0, 1, 2, 3].foldl (Memory.writeLane a enables w) m

/-- The words of an access, in ascending address order, modulo 2^22 (R171). -/
def Memory.readWords (m : Memory) (a : Nat) : Nat → List Word
  | 0 => []
  | n + 1 => m.readWord a :: Memory.readWords m (a + 1) n

/-- Full words written at consecutive addresses. -/
def Memory.writeWords : Memory → Nat → List Word → Memory
  | m, _, [] => m
  | m, a, w :: ws => Memory.writeWords (m.writeWord a 0xF#4 w) (a + 1) ws

/-- Memory after the memory port has carried an internal access (R173). -/
def Memory.carry (m : Memory) (a : Access) : Memory :=
  match a.data with
  | none => m
  | some ws => m.writeWords a.addr ws

/-! ### Part state -/

/-- The part is ARMED, or ARMING from ARMED: the track, the stations and the oven work (R3, R186). -/
def Blocks.live (b : Blocks) : Bool :=
  match b.restart.part with
  | .armed => true
  | .arming fromArmed => fromArmed
  | .dormant => false

/-! ### Updates of one block by a function -/

def Blocks.modTrack (f : Track → Track) (b : Blocks) : Blocks := b.setTrack (f b.track)
def Blocks.modPlan (f : Plan → Plan) (b : Blocks) : Blocks := b.setPlan (f b.plan)
def Blocks.modCache (f : Cache → Cache) (b : Blocks) : Blocks := b.setCache (f b.cache)
def Blocks.modCues (f : Cues → Cues) (b : Blocks) : Blocks := b.setCues (f b.cues)
def Blocks.modStations (f : Stations → Stations) (b : Blocks) : Blocks := b.setStations (f b.stations)
def Blocks.modOven (f : Oven → Oven) (b : Blocks) : Blocks := b.setOven (f b.oven)
def Blocks.modField (f : FieldLine → FieldLine) (b : Blocks) : Blocks := b.setField (f b.field)
def Blocks.modReport (f : Report → Report) (b : Blocks) : Blocks := b.setReport (f b.report)
def Blocks.modPath (f : Path → Path) (b : Blocks) : Blocks := b.setPath (f b.path)
def Blocks.modRestart (f : Restart → Restart) (b : Blocks) : Blocks := b.setRestart (f b.restart)

/-! ### Windows (R174) -/

/-- The windows of the window table, and what lies outside them all. -/
inductive Window
  | anchor | plan | settings | mount | outcome | status | snapshot | outside
  deriving DecidableEq, Repr

/-- The windows after ANCHOR with their bases and lengths, from the anchor data in force (R174). -/
def Anchor.windows (c : Anchor) : List (Window × Nat × Nat) :=
  [(.plan, c.planBase, 4 * c.planSlots), (.settings, c.settingsBase, 32768), (.mount, c.mountBase, 96),
   (.outcome, c.outcomeBase, 32 * c.outcomeSlots), (.status, c.statusBase, 64), (.snapshot, c.snapshotBase, 2241)]

/-- The first window of a list whose range holds an address, with the offset inside it. -/
def windowIn (a : Nat) : List (Window × Nat × Nat) → Window × Nat
  | [] => (.outside, a)
  | (w, base, len) :: r => if base ≤ a ∧ a < base + len then (w, a - base) else windowIn a r

/-- The window a word address falls in, with its word offset. Only ANCHOR is in the table unless the part is ARMED or
ARMING from ARMED (R174). -/
def windowOf (x : Ctx) (b : Blocks) (a : Nat) : Window × Nat :=
  if a < 64 then (.anchor, a) else if b.live then windowIn a x.cfg.windows else (.outside, a)

/-! ### Plan slot protection (R53) -/

/-- Slot k is posted and not yet freed: it lies among the posted slots counted from the take index. -/
def planProtected (x : Ctx) (p : Plan) (k : Nat) : Bool :=
  decide ((k + x.cfg.planSlots - p.takeIndex) % x.cfg.planSlots < p.posted)

/-! ### Words of the host access (R171, R175) -/

/-- The address of word i of a host access. -/
def hostWordAt (a : HostAccess) (i : Nat) : Nat :=
  match a with
  | .read addr _ => wordAddr (addr.toNat + i)
  | .write addr _ => wordAddr (addr.toNat + i)

/-- Word i of a host write. -/
def hostWriteWord (a : HostAccess) (i : Nat) : Option WriteWord :=
  match a with
  | .read _ _ => none
  | .write _ ws => ws[i]?

/-- The drop test of a write word, made before it is carried (R175). -/
def judgeWord (x : Ctx) (b : Blocks) (a : HostAccess) (i : Nat) : WordJudgement :=
  match hostWriteWord a i with
  | none => .pass
  | some w =>
    if w.enables = 0 then .pass
    else
      match windowOf x b (hostWordAt a i) with
      | (.plan, off) => if planProtected x b.plan (off / 4) then .dropPlan (off / 4) else .pass
      | (.snapshot, _) => .dropSnapshot
      | _ => .pass

/-! ### Internal requests and the arbiter (R181, R182, R184) -/

def Requester.rank : Requester → Fin 4
  | .restart => 0
  | .cache => 1
  | .plan => 2
  | .report => 3

/-- The requesters in the order of rank. -/
def Requester.all : List Requester := [.restart, .cache, .plan, .report]

/-- The requester that makes an access. -/
def AccessKind.requester : AccessKind → Requester
  | .anchorRead | .mountRead | .snapshotRead | .mapRead | .resultWrite | .startWrite | .snapshotWrite
  | .snapshotClosing => .restart
  | .settingRead => .cache
  | .planRead | .freeingWrite => .plan
  | .recordBurst | .recordWord0 | .statusBurst => .report

/-- A request of a requester. -/
def Path.slot (p : Path) (r : Requester) : Option Access := p.slots[r.rank]

/-- The request is placed in its requester's slot. -/
def Path.request (p : Path) (a : Access) : Path := { p with slots := p.slots.set a.kind.requester.rank (some a) }

/-- The requests that wait, highest rank first. -/
def Path.waiting (p : Path) : List Requester := Requester.all.filter (fun r => (p.slot r).isSome)

/-- R184: a waiting request leaves its slot. A withdrawal that empties every slot sets the host run count to 0 (R182). -/
def Path.withdraw (p : Path) (r : Requester) : Path :=
  if (p.slot r).isSome then
    let p' := { p with slots := p.slots.set r.rank none }
    if p'.waiting = [] then { p' with hostRun := 0 } else p'
  else p

/-- The requester has an access waiting, or carried and not abandoned by a reset. -/
def Path.outstanding (p : Path) (r : Requester) : Bool :=
  (p.slot r).isSome ||
    match p.port with
    | .internal a abandoned => !abandoned && decide (a.kind.requester = r)
    | _ => false

/-- A read request of `n` words at an address. -/
def readAccess (k : AccessKind) (addr n : Nat) : Access := ⟨k, wordAddr addr, n, none⟩

/-- A write request of full words at an address. -/
def writeAccess (k : AccessKind) (addr : Nat) (ws : List Word) : Access := ⟨k, wordAddr addr, ws.length, some ws⟩

/-- The requests present at a decision: the host's, and those of the internal requesters. -/
structure Requests where
  host : Bool
  ints : List Requester
  deriving DecidableEq, Repr

/-- The requests present now (R181). -/
def Path.requests (p : Path) : Requests where
  host := match p.host with
    | .portWait _ => true
    | _ => false
  ints := p.waiting

/-- What the decision at the end of a step weighs: every request; or those already present before the step, where any
still is. A step with the next command's event at its moment leaves every other decision to that command's step (log 9). -/
inductive Weigh
  | all
  | held
  | among (q : Requests) (joined : Bool)
  deriving DecidableEq, Repr

/-- What the decision of a step weighs: with the requests present before it, and with whether the next command's event
comes at its moment. -/
def Weigh.of (pre : Requests) (joined : Bool) : Decision → Weigh
  | .withNew => if joined then .held else .all
  | .beforeNew => .among pre joined

/-- The requests already present before a step that still are. A request that the step withdraws and its requester makes
anew counts as one (log 9). -/
def Path.early (p : Path) (o : Requests) : Requests :=
  let now := p.requests
  ⟨o.host && now.host, now.ints.filter (fun r => o.ints.contains r)⟩

/-- A request is there. -/
def Requests.any (q : Requests) : Bool := q.host || !q.ints.isEmpty

/-- The requests of a decision; none where it is left to the next command's step (log 9). -/
def Path.weighed (p : Path) : Weigh → Option Requests
  | .all => some p.requests
  | .held => none
  | .among o joined => if (p.early o).any then some (p.early o) else if joined then none else some p.requests

/-- The host access is granted: it is carried from its word 0, which is judged (R172, R175). -/
def grantHost (x : Ctx) (b : Blocks) (run : Nat) : Blocks :=
  match b.path.host with
  | .portWait a =>
    b.setPath { b.path with host := .carrying a 0 (judgeWord x b a 0), port := .host, readData := [], hostRun := run }
  | _ => b

/-- An internal request is granted: it leaves its slot and is carried. The host run count becomes 0 (R182). -/
def grantInternal (b : Blocks) (r : Requester) : Blocks :=
  match b.path.slot r with
  | some a =>
    b.setPath { b.path with slots := b.path.slots.set r.rank none, port := .internal a false, hostRun := 0 }
  | none => b

/-- The grant rule of R182 among given requests. -/
def grantAmong (x : Ctx) (b : Blocks) (q : Requests) : Blocks :=
  match q.host, q.ints with
  | true, [] => grantHost x b b.path.hostRun
  | true, r :: _ => if b.path.hostRun < 4 then grantHost x b (b.path.hostRun + 1) else grantInternal b r
  | false, r :: _ => grantInternal b r
  | false, [] => b

/-- A grant decision, made whenever the port is free and a request is present (R182). -/
def arbitrate (x : Ctx) (w : Weigh) (b : Blocks) : Blocks :=
  match b.path.port, b.path.weighed w with
  | .free, some q => grantAmong x b q
  | _, _ => b

end Sys2Proof.Machine
end

