-- ==== Sys2Proof/Machine/Flags.lean ====
section
/-! DEFINITION. The latched cause set (01 section 1.5): raise claims, standing conditions, clear claims, and the lines
that follow from the set: HOLD, TRIP and ALERT. -/

namespace Sys2Proof.Machine

/-- The kind number (R14). -/
def CauseKind.number : CauseKind → Fin 26
  | .seamUnlifted => 0
  | .seamOverflow => 1
  | .liftTimeout => 2
  | .liftFault => 3
  | .trackUncertain => 4
  | .positionLimit => 5
  | .ovenVent => 6
  | .outcomeLost => 7
  | .moduleLost => 8
  | .trackFull => 9
  | .cacheFull => 10
  | .starvedHold => 11
  | .register => 12
  | .cueOverflow => 13
  | .moduleFault => 14
  | .outcomeBacklog => 15
  | .starved => 16
  | .orderRejected => 17
  | .planOverwrite => 18
  | .planOutOfOrder => 19
  | .planBadClose => 20
  | .pasteLow => 21
  | .ovenStandby => 22
  | .undercure => 23
  | .overcure => 24
  | .mountRefused => 25

/-- The kinds in the order of their numbers. -/
def CauseKind.all : List CauseKind :=
  [.seamUnlifted, .seamOverflow, .liftTimeout, .liftFault, .trackUncertain, .positionLimit, .ovenVent, .outcomeLost,
   .moduleLost, .trackFull, .cacheFull, .starvedHold, .register, .cueOverflow, .moduleFault, .outcomeBacklog,
   .starved, .orderRejected, .planOverwrite, .planOutOfOrder, .planBadClose, .pasteLow, .ovenStandby, .undercure,
   .overcure, .mountRefused]

/-- The level of a kind (R14). MODULE_LOST takes its level from the raising rule, HOLD where the rule names none. -/
def CauseKind.level : CauseKind → Level
  | .seamUnlifted | .seamOverflow | .liftTimeout | .liftFault | .trackUncertain | .positionLimit | .ovenVent
  | .outcomeLost => .trip
  | .moduleLost | .trackFull | .cacheFull | .starvedHold | .register | .cueOverflow | .moduleFault
  | .outcomeBacklog => .hold
  | .starved | .orderRejected | .planOverwrite | .planOutOfOrder | .planBadClose | .pasteLow | .ovenStandby
  | .undercure | .overcure | .mountRefused => .report

/-- The entry of a kind. -/
def CauseSet.entry (cs : CauseSet) (k : CauseKind) : Option Latched := cs[k.number]

/-- A change of the set is handed to the report unit, which owes a rewrite for it (R13, R166). -/
def causeChange (b : Blocks) : Blocks := b.modReport fun r => { r with rewriteOwed := true }

/-- R44: every segment held gets POSITION_UNCERTAIN. -/
def flagUncertain (t : Track) : Track :=
  { t with segs := t.segs.map fun g => { g with flags := { g.flags with positionUncertain := true } } }

/-- A kind that is clear becomes latched (R13). The latching of TRACK_UNCERTAIN is handed to the track unit (R8). -/
def latch (k : CauseKind) (source : Nat) (level : Level) (b : Blocks) : Blocks :=
  let b := causeChange (b.setCauses (b.causes.set k.number (some ⟨level, source, 1⟩)))
  if k = .trackUncertain then b.modTrack flagUncertain else b

/-- A raise of a kind already latched: the count rises, and a TRIP-level claim of MODULE_LOST raises the level (R13). -/
def raiseLatched (k : CauseKind) (level : Level) (e : Latched) (b : Blocks) : Blocks :=
  if k = .moduleLost ∧ level = .trip ∧ e.level ≠ .trip then
    causeChange (b.setCauses (b.causes.set k.number (some ⟨.trip, e.source, inc8 e.count⟩)))
  else b.setCauses (b.causes.set k.number (some ⟨e.level, e.source, inc8 e.count⟩))

/-- A raise claim with a level (R13). A claim made while the part is neither ARMED nor ARMING from ARMED is discarded. -/
def raiseAt (k : CauseKind) (source : Nat) (level : Level) (b : Blocks) : Blocks :=
  if b.live then
    match b.causes.entry k with
    | none => latch k source level b
    | some e => raiseLatched k level e b
  else b

/-- A raise claim at the kind's own level. -/
def raise (k : CauseKind) (source : Nat) (b : Blocks) : Blocks := raiseAt k source k.level b

/-! ### Standing conditions (R16) -/

/-- A module is configured: its screen is mounted in the data in force, or its zone is listed (R144). -/
def configured (x : Ctx) (b : Blocks) (a : Fin 24) : Bool :=
  if h : a.val < 16 then b.stations.station[a.val].mount.mounted
  else decide (a.val - 16 < x.cfg.zoneCount)

/-- Any configured module is LOST (R107, R151). -/
def moduleLostStands (x : Ctx) (b : Blocks) : Bool :=
  modules.any fun a => configured x b a && !b.field.module[a].online

/-- The marker of any configured module is set (R152). -/
def moduleFaultStands (x : Ctx) (b : Blocks) : Bool :=
  modules.any fun a => configured x b a && b.field.module[a].faultMarker

/-- The out-of-register count of a mounted screen stands at or above K (R114). -/
def registerStands (b : Blocks) : Bool :=
  screens.any fun k =>
    let st := b.stations.station[k]
    st.mount.mounted && decide (st.mount.persistence ≤ st.outOfReg)

/-- The standing condition that a kind's block presents: R8, R29, R39, R72, R107, R114, R151, R152, R159. The other kinds
have none. -/
def standing (x : Ctx) (b : Blocks) : CauseKind → Bool
  | .trackUncertain => decide (x.cfg.backlash < x.motion.h - x.motion.p)
  | .moduleLost => moduleLostStands x b
  | .trackFull => decide (b.track.boundary = .deferred false)
  | .cacheFull => b.cache.waiting.isSome
  | .starvedHold => b.track.starvedHold
  | .register => registerStands b
  | .moduleFault => moduleFaultStands x b
  | .outcomeBacklog => decide (4 ≤ b.report.queue.length)
  | .seamUnlifted | .seamOverflow | .liftTimeout | .liftFault | .positionLimit | .ovenVent | .outcomeLost
  | .cueOverflow | .starved | .orderRejected | .planOverwrite | .planOutOfOrder | .planBadClose | .pasteLow
  | .ovenStandby | .undercure | .overcure | .mountRefused => false

/-! ### Clear claims (R16) -/

/-- R137: every zone in VENT leaves it, to STANDBY at dwell stage 1 or 2, to RUN at stage 0. -/
def releaseVent (o : Oven) : Oven :=
  { o with zone := Bank.tabulate fun z =>
      let r := o.zone[z]
      if r.mode = .vent then { r with mode := if o.dwellStage = 0 then .run else .standby } else r }

/-- One named kind of a clear claim (R16). The clearing of OVEN_VENT is handed to the oven unit. -/
def clearKind (x : Ctx) (b : Blocks) (k : CauseKind) : Blocks :=
  match b.causes.entry k with
  | none => b
  | some e =>
    if standing x b k then
      let level := if k = .moduleLost then .hold else e.level
      let b' := b.setCauses (b.causes.set k.number (some ⟨level, e.source, 1⟩))
      if level = e.level then b' else causeChange b'
    else
      let b' := causeChange (b.setCauses (b.causes.set k.number none))
      if k = .ovenVent then b'.modOven releaseVent else b'

/-- A clear claim: the kinds whose bits a word sets, in the order of their numbers. Bits above 25 are ignored (R16). -/
def clearClaim (x : Ctx) (mask : Word) (b : Blocks) : Blocks :=
  (CauseKind.all.filter fun k => bit mask k.number).foldl (clearKind x) b

/-! ### Lines (R15, R169) -/

/-- The set holds a cause of a level. -/
def CauseSet.holds (c : CauseSet) (l : Level) : Bool :=
  CauseKind.all.any fun k => match c.entry k with
    | some e => decide (e.level = l)
    | none => false

/-- HOLD is asserted exactly while the set holds a HOLD-level cause (R15). -/
def Blocks.holdLine (b : Blocks) : Bool := b.causes.holds .hold

/-- TRIP is asserted exactly while the set holds a TRIP-level cause (R15). -/
def Blocks.tripLine (b : Blocks) : Bool := b.causes.holds .trip

/-- ALERT (R169): an enabled class holds; off while the part is DORMANT or ARMING from DORMANT. -/
def alertLine (x : Ctx) (b : Blocks) : Bool :=
  b.live &&
    ((x.cfg.alert.outcomes && b.report.full.any id) || (x.cfg.alert.trip && b.tripLine) ||
     (x.cfg.alert.hold && b.holdLine) || (x.cfg.alert.report && b.causes.holds .report))

/-- WAIT is driven from the taking of an access until it completes (R171). -/
def Blocks.waitLine (b : Blocks) : Bool := decide (b.path.host ≠ .empty)

/-- MARK is driven while a pulse runs (R93). -/
def Blocks.markLine (b : Blocks) : Bool := b.cues.markPulse

end Sys2Proof.Machine
end

