-- ==== Sys2Proof/Machine/Operands.lean ====
section
/-! DEFINITION. The forms in which values stand in job memory and on the field line, read and written (12): the anchor,
the mount window, order slots, setting records, outcome records, the snapshot, and field-line frames, with the checks
of each. -/

namespace Sys2Proof.Machine

/-- Word `i` of a list of words read; 0 beyond its end. -/
def wordAt (ws : List Word) (i : Nat) : Word := ws.getD i 0

/-- Each number of a list lies below the next. -/
def increasing : List Nat → Bool
  | [] => true
  | [_] => true
  | a :: b :: r => decide (a < b) && increasing (b :: r)

/-! ### Codes (sections 12.3 to 12.5) -/

def SegKind.code : SegKind → Nat
  | .print => 0
  | .blank => 1
  | .seam => 2

def SegKind.ofCode : Nat → SegKind
  | 0 => .print
  | 1 => .blank
  | _ => .seam

def SegOrigin.code : SegOrigin → Nat
  | .order => 0
  | .starved => 1
  | .seam => 2
  | .continuation => 3

def SegOrigin.ofCode : Nat → SegOrigin
  | 0 => .order
  | 1 => .starved
  | 2 => .seam
  | _ => .continuation

def Verdict.code : Verdict → Nat
  | .pending => 0
  | .cured => 1
  | .unverified => 2
  | .undercured => 3
  | .overcured => 4
  | .notApplicable => 5

def Verdict.ofCode : Nat → Verdict
  | 0 => .pending
  | 1 => .cured
  | 2 => .unverified
  | 3 => .undercured
  | 4 => .overcured
  | _ => .notApplicable

def MarkCode.code : MarkCode → Nat
  | .notReached => 0
  | .notUsed => 1
  | .printed => 2
  | .partly => 3
  | .missed => 4

def MarkCode.ofCode : Nat → MarkCode
  | 1 => .notUsed
  | 2 => .printed
  | 3 => .partly
  | 4 => .missed
  | _ => .notReached

def RejectReason.code : RejectReason → Nat
  | .badClose => 1
  | .badKind => 2
  | .badLength => 3
  | .badSettingNumber => 4
  | .settingBad => 5
  | .settingUnstable => 6

def OrderKind.code : OrderKind → Nat
  | .printLength => 1
  | .printUntilSeam => 2
  | .blankLength => 3

def OrderKind.ofCode : Nat → Option OrderKind
  | 1 => some .printLength
  | 2 => some .printUntilSeam
  | 3 => some .blankLength
  | _ => none

def CueAction.code : CueAction → Nat
  | .lift => 1
  | .lower => 2
  | .pasteHold => 3
  | .pasteResume => 4
  | .zoneSet => 5
  | .mark => 6

def CueAction.ofCode : Nat → Option CueAction
  | 1 => some .lift
  | 2 => some .lower
  | 3 => some .pasteHold
  | 4 => some .pasteResume
  | 5 => some .zoneSet
  | 6 => some .mark
  | _ => none

def ResultCode.code : ResultCode → Nat
  | .pending => 1
  | .refusedBusy => 2
  | .badCookie => 3
  | .badCheck => 4
  | .badWindows => 5
  | .badGeometry => 6
  | .badMount => 7
  | .armedCold => 8
  | .armedWarm => 9
  | .armedColdTrackLost => 10

def LiftPosition.code : LiftPosition → Nat
  | .up => 0
  | .down => 1
  | .moving => 2

def LiftPosition.ofCode : Nat → Option LiftPosition
  | 0 => some .up
  | 1 => some .down
  | 2 => some .moving
  | _ => none

def ZoneMode.code : ZoneMode → Nat
  | .run => 0
  | .standby => 1
  | .vent => 2

/-- The flags of Table 2-1 from the lowest bit upward (section 12.3). -/
def SegFlags.toNat (f : SegFlags) : Nat :=
  boolNat f.late + 2 * boolNat f.split + 4 * boolNat f.extended + 8 * boolNat f.seamUnlifted +
    16 * boolNat f.cuesLost + 32 * boolNat f.positionUncertain + 64 * boolNat f.restored +
    128 * boolNat f.coverageShort + 256 * boolNat f.holdAtEnd

def SegFlags.ofNat (n : Nat) : SegFlags where
  late := n.testBit 0
  split := n.testBit 1
  extended := n.testBit 2
  seamUnlifted := n.testBit 3
  cuesLost := n.testBit 4
  positionUncertain := n.testBit 5
  restored := n.testBit 6
  coverageShort := n.testBit 7
  holdAtEnd := n.testBit 8

/-! ### The result word (R188, section 12.1) -/

/-- The result word: the request identifier and the result code. -/
def resultWord (code : ResultCode) (id : BitVec 16) : Word := pack [(0, 16, id.toNat), (16, 8, code.code)]

/-! ### The mount window (R97, R99, section 12.2) -/

/-- The record of screen k + 1. -/
def mountRecord (ws : List Word) (k : Nat) : MountRecord where
  mounted := bit (wordAt ws (4 * k)) 0
  persistence := fld (wordAt ws (4 * k)) 4 4
  tolerance := fld (wordAt ws (4 * k)) 8 8
  repeatLen := fld (wordAt ws (4 * k + 1)) 0 16
  origin := fld (wordAt ws (4 * k + 1)) 16 16
  lead := fld (wordAt ws (4 * k + 2)) 0 16
  lag := fld (wordAt ws (4 * k + 2)) 16 16

def mountTimeout (ws : List Word) : Nat := fld (wordAt ws 64) 0 16
def mountRefScreen (ws : List Word) : Nat := fld (wordAt ws 64) 16 5

/-- The fields of a mounted screen lie in their ranges (R97). -/
def MountRecord.inRange (m : MountRecord) : Bool :=
  decide (4000 ≤ m.repeatLen ∧ m.repeatLen ≤ 20000 ∧ m.origin < m.repeatLen ∧ m.lead ≤ 5000 ∧ m.lag ≤ 5000 ∧
    5 ≤ m.tolerance ∧ m.tolerance ≤ 200 ∧ 1 ≤ m.persistence ∧ m.persistence ≤ 15)

/-- The shared items lie in range (R97). -/
def mountSharedOk (ws : List Word) : Bool :=
  decide (100 ≤ mountTimeout ws ∧ mountTimeout ws ≤ 3000 ∧ 1 ≤ mountRefScreen ws ∧ mountRefScreen ws ≤ 16)

/-- Check 3 of R99: the source of a failure, the lowest screen failing, or 0 for a shared item; the screen where both fail
(log 59). -/
def mountRangeFault (screenCount : Nat) (ws : List Word) : Option Nat :=
  match screens.find? fun (k : Fin 16) =>
      let m := mountRecord ws k
      m.mounted && (decide (screenCount ≤ k.val) || !m.inRange) with
  | some k => some (k.val + 1)
  | none => if mountSharedOk ws then none else some 0

/-- Check 4 of R99: the lowest mounted screen whose lift lead exceeds its offset plus U. -/
def mountLeadFault (offsets : Bank Nat 16) (u : Nat) (ws : List Word) : Option Nat :=
  (screens.find? fun (k : Fin 16) =>
    let m := mountRecord ws k
    m.mounted && decide (offsets[k] + u < m.lead)).map fun k => k.val + 1

/-! ### The anchor (R189, section 12.1) -/

/-- The anchor's values from its 64 words. -/
def parseAnchor (ws : List Word) : Anchor where
  planBase := fld (wordAt ws 1) 0 22
  planSlots := fld (wordAt ws 2) 0 9
  settingsBase := (wordAt ws 3).toNat
  mountBase := (wordAt ws 4).toNat
  outcomeBase := (wordAt ws 5).toNat
  outcomeSlots := fld (wordAt ws 6) 0 8
  policy := if bit (wordAt ws 6) 16 then .overwrite else .holdLine
  statusBase := (wordAt ws 7).toNat
  snapshotBase := (wordAt ws 8).toNat
  screenCount := fld (wordAt ws 9) 0 5
  zoneCount := fld (wordAt ws 9) 8 4
  seamFalling := bit (wordAt ws 9) 16
  lineRate := fld (wordAt ws 9) 24 2
  screenOffset := Bank.tabulate fun k => (wordAt ws (10 + k)).toNat
  zoneEntry := Bank.tabulate fun k => (wordAt ws (26 + k)).toNat
  ovenExit := (wordAt ws 34).toNat
  exitOffset := (wordAt ws 35).toNat
  divisor := fld (wordAt ws 36) 0 8
  cyclePeriod := fld (wordAt ws 36) 8 4
  alert := ⟨bit (wordAt ws 36) 16, bit (wordAt ws 36) 17, bit (wordAt ws 36) 18, bit (wordAt ws 36) 19⟩
  detectorDistance := (wordAt ws 37).toNat
  seamLength := (wordAt ws 38).toNat
  minOrder := (wordAt ws 39).toNat
  backlash := (wordAt ws 40).toNat
  stopDetect := (wordAt ws 41).toNat
  probeSpacing := (wordAt ws 42).toNat
  standbySetpoint := (wordAt ws 43).toNat
  stage1 := fld (wordAt ws 44) 0 16
  stage2 := fld (wordAt ws 44) 16 16
  replyTimeout := fld (wordAt ws 45) 0 16
  stallLimit := fld (wordAt ws 45) 16 16
  statusInterval := (wordAt ws 46).toNat
  snapshotDistance := (wordAt ws 47).toNat
  restartCorrection := sfld (wordAt ws 48) 0 32
  restartGap := fld (wordAt ws 49) 0 16

/-- Two ranges of words share no word. -/
def rangesApart (a b : Nat × Nat) : Bool := decide (a.1 + a.2 ≤ b.1 ∨ b.1 + b.2 ≤ a.1)

def allApart : List (Nat × Nat) → Bool
  | [] => true
  | r :: rs => rs.all (rangesApart r) && allApart rs

/-- Check 3 of R189. -/
def windowsOk (c : Anchor) : Bool :=
  decide (4 ≤ c.planSlots ∧ c.planSlots ≤ 256 ∧ 8 ≤ c.outcomeSlots ∧ c.outcomeSlots ≤ 128) &&
    (c.windows.all fun w => decide (w.2.1 + w.2.2 ≤ Config.memoryWords)) &&
    allApart ((0, 64) :: c.windows.map fun w => w.2)

/-- The offsets of screens 1 to the screen count, and the entries of the listed zones. -/
def Anchor.offsets (c : Anchor) : List Nat := c.screenOffset.toList.take c.screenCount
def Anchor.entries (c : Anchor) : List Nat := c.zoneEntry.toList.take c.zoneCount

/-- Check 4 of R189. -/
def geometryOk (c : Anchor) : Bool :=
  decide (1 ≤ c.screenCount ∧ c.screenCount ≤ 16) && (c.offsets.all fun o => decide (1 ≤ o ∧ o ≤ 2000000)) &&
    increasing c.offsets && decide (1 ≤ c.zoneCount ∧ c.zoneCount ≤ 8) && increasing c.entries &&
    (c.entries.all fun e => decide (e < c.ovenExit)) && decide (c.ovenExit < c.exitOffset) &&
    (c.offsets.all fun o => decide (o < c.exitOffset)) && decide (c.exitOffset ≤ 2000000)

/-- Check 5 of R189. -/
def parametersOk (c : Anchor) : Bool :=
  decide (1 ≤ c.divisor ∧ c.divisor ≤ 255) && decide (1000 ≤ c.detectorDistance ∧ c.detectorDistance ≤ 400000) &&
    decide (500 ≤ c.seamLength ∧ c.seamLength ≤ 20000) && decide (1000 ≤ c.minOrder ∧ c.minOrder ≤ 100000) &&
    decide (c.backlash ≤ 10000) && decide (50 ≤ c.stopDetect ∧ c.stopDetect ≤ 2000) &&
    decide (10000 ≤ c.probeSpacing ∧ c.probeSpacing ≤ 500000) && decide (c.standbySetpoint ≤ 2500) &&
    decide (5 ≤ c.stage1 ∧ c.stage1 ≤ 600) && decide (c.stage1 < c.stage2 ∧ c.stage2 ≤ 1800) &&
    decide (1 ≤ c.cyclePeriod ∧ c.cyclePeriod ≤ 10) && decide (50 ≤ c.replyTimeout ∧ c.replyTimeout ≤ 500) &&
    decide (c.stallLimit ≤ 200) && decide (10 ≤ c.statusInterval ∧ c.statusInterval ≤ 1000) &&
    decide (1000 ≤ c.snapshotDistance ∧ c.snapshotDistance ≤ 100000) &&
    decide (-200000 ≤ c.restartCorrection ∧ c.restartCorrection ≤ 200000)

/-- Checks 1 to 5 of R189 on the anchor as read: the code of the first that fails. -/
def anchorFault (ws : List Word) : Option ResultCode :=
  let c := parseAnchor ws
  if wordAt ws 0 ≠ Config.cookie then some .badCookie
  else if !validClosing (wordAt ws 63) then some .badCheck
  else if !windowsOk c then some .badWindows
  else if !geometryOk c then some .badGeometry
  else if !parametersOk c then some .badGeometry
  else none

/-- Check 6 of R189 on the mount window as read. -/
def mountOk (c : Anchor) (ws : List Word) : Bool :=
  validClosing (wordAt ws 95) && (mountRangeFault c.screenCount ws).isNone &&
    (mountLeadFault c.screenOffset c.detectorDistance ws).isNone

/-! ### Order slots (R47, R48, R55, section 12.2) -/

/-- Word 0 of the slot of an order, bits not named zero. -/
def orderWord0 (o : StagedOrder) : Word :=
  pack [(0, 4, o.kind.code), (8, 10, o.settingNumber), (24, 1, boolNat o.align), (25, 1, boolNat o.holdAtEnd)]

/-- The order that slot words describe, not yet looked up. -/
def orderOf (kind : OrderKind) (slot : Nat) (w0 len tag : Word) (id : BitVec 16) : StagedOrder where
  kind := kind
  align := bit w0 24
  holdAtEnd := bit w0 25
  settingNumber := fld w0 8 10
  length := len.toNat
  tag := tag
  orderId := id
  slot := slot
  state := .none
  ref := none

/-- The kind uses its length word; the kind uses its setting number (R47). -/
def OrderKind.usesLength : OrderKind → Bool
  | .printLength | .blankLength => true
  | .printUntilSeam => false

def OrderKind.usesSetting : OrderKind → Bool
  | .printLength | .printUntilSeam => true
  | .blankLength => false

/-- The checks of R55 in order. -/
def validateOrder (minOrder slot : Nat) (ws : List Word) : TakeResult :=
  let close := wordAt ws 3
  let id := closingId close
  if !validClosing close then .invalid id .badClose
  else
    match OrderKind.ofCode (fld (wordAt ws 0) 0 4) with
    | none => .invalid id .badKind
    | some kind =>
      let o := orderOf kind slot (wordAt ws 0) (wordAt ws 1) (wordAt ws 2) id
      if kind.usesLength && !decide (minOrder ≤ o.length ∧ o.length ≤ 2147483648) then .invalid id .badLength
      else if kind.usesSetting && !decide (o.settingNumber ≤ 511) then .invalid id .badSettingNumber
      else .valid o

/-! ### Setting records (R65, R66, R67, section 12.2) -/

/-- The first word of a cue position. -/
def cueWord (ws : List Word) (p : Nat) : Word := wordAt ws (22 + 2 * p)

/-- The number of cues: the first of the 17 positions whose first word is zero (R66). -/
def terminator (ws : List Word) : Option Nat := (List.range 17).find? fun p => decide (cueWord ws p = 0)

/-- Checks 7 to 10 of R67 on the cue at a position, and the cue. -/
def decodeCue (screenCount zoneCount : Nat) (ws : List Word) (p : Nat) : Except SettingDetail Cue :=
  let w := cueWord ws p
  match CueAction.ofCode (fld w 0 3) with
  | none => .error .cueAction
  | some action =>
    let c : Cue := ⟨action, fld w 8 5, bit w 15, sfld (wordAt ws (23 + 2 * p)) 0 32, fld w 16 12⟩
    let targetOk := match action with
      | .zoneSet => decide (1 ≤ c.target ∧ c.target ≤ zoneCount)
      | .mark => decide (c.target = 0)
      | .lift | .lower | .pasteHold | .pasteResume => decide (1 ≤ c.target ∧ c.target ≤ screenCount)
    let valueOk := match action with
      | .zoneSet => decide (c.value ≤ 2500)
      | .mark => decide (c.value ≤ 255)
      | .lift | .lower | .pasteHold | .pasteResume => true
    if !targetOk then .error .cueTarget
    else if !decide (-20000 ≤ c.offset ∧ c.offset ≤ 20000) then .error .cueOffset
    else if !valueOk then .error .cueValue
    else .ok c

/-- The cues at positions from `p` on, cue by cue; the first that fails gives the detail and its position. -/
def decodeCues (screenCount zoneCount : Nat) (ws : List Word) : Nat → Nat → Except (SettingDetail × Option Nat) (List Cue)
  | _, 0 => .ok []
  | p, n + 1 =>
    match decodeCue screenCount zoneCount ws p with
    | .error d => .error (d, some p)
    | .ok c =>
      match decodeCues screenCount zoneCount ws (p + 1) n with
      | .error e => .error e
      | .ok cs => .ok (c :: cs)

/-- The record's fields but its cue list (section 12.2). -/
def decodeFields (ws : List Word) (cues : List Cue) : Setting where
  engage := (wordAt ws 1).extractLsb' 0 16
  paste := Bank.tabulate fun k => fld (wordAt ws (2 + k.val / 2)) (16 * (k.val % 2)) 16
  setpoint := Bank.tabulate fun k => fld (wordAt ws (10 + k.val)) 0 16
  air := Bank.tabulate fun k => fld (wordAt ws (10 + k.val)) 16 4
  cureTemp := fld (wordAt ws 18) 0 16
  cureTime := fld (wordAt ws 18) 16 16
  scorchTemp := fld (wordAt ws 19) 0 16
  scorchTime := fld (wordAt ws 19) 16 16
  cues := cues

/-- The setting engages screen k + 1. -/
def Setting.engages (t : Setting) (k : Fin 16) : Bool := t.engage.getLsbD k

/-- The checks of R67 in order, and the decoded setting. -/
def validateSetting (screenCount zoneCount : Nat) (st : Bank Station 16) (number : Nat) (ws : List Word) :
    Except (SettingDetail × Option Nat) Setting :=
  let t := decodeFields ws []
  if !(validClosing (wordAt ws 0) && decide ((closingId (wordAt ws 0)).toNat = number)) then .error (.validity, none)
  else if !(screens.all fun k => !t.engages k || (decide (k.val < screenCount) && st[k].mount.mounted)) then
    .error (.engage, none)
  else if !(screens.all fun k => !t.engages k || decide (t.paste[k] ≤ 1000)) then .error (.paste, none)
  else if !(zones.all fun z => !decide (z.val < zoneCount) || decide (t.setpoint[z] ≤ 2500)) then .error (.profile, none)
  else if !decide (t.cureTemp ≤ 2500 ∧ 1 ≤ t.cureTime ∧ t.cureTemp < t.scorchTemp ∧ t.scorchTemp ≤ 2500) then
    .error (.cure, none)
  else
    match terminator ws with
    | none => .error (.terminator, none)
    | some n =>
      match decodeCues screenCount zoneCount ws 0 n with
      | .error e => .error e
      | .ok cs => .ok { t with cues := cs }

/-! ### Outcome records (R157, R158, section 12.3) -/

/-- The setting a reference gives: one whose restore claim failed is absent from then on (R196, log 22). -/
def presentRef (r : Option SettingRef) : Option SettingRef := r.filter fun r => decide (r.link ≠ .lost)

/-- Screen marks of 8 screens from index `k` on, four bits each. -/
def markWord (m : Bank ScreenMark 16) (k : Nat) : Word :=
  pack ((List.range 8).flatMap fun i =>
    match m[k + i]? with
    | some e => [(4 * i, 3, e.code.code), (4 * i + 3, 1, boolNat e.register)]
    | none => [])

/-- Worst errors of 4 screens from index `k` on, one byte each. -/
def worstWord (v : Bank Nat 16) (k : Nat) : Word :=
  pack ((List.range 4).map fun i => (8 * i, 8, (v[k + i]?).getD 0))

/-- The largest of a time among the probes, 0 where there is none (R132). -/
def largest (f : Probe → Nat) (ps : List Probe) : Nat := ps.foldl (fun m p => max m (f p)) 0

/-- A relative position of a mark, saturating at −8,388,607 and +8,388,607, in 24 bits (section 12.3). -/
def markPosition (v : Int) : Nat := twos 24 (max (-8388607) (min 8388607 v))

/-- Word 4 of an outcome record, which also stands in a snapshot segment. -/
def segmentWord4 (g : Segment) (number : Nat) : Word :=
  pack [(0, 9, number), (9, 9, g.flags.toNat), (18, 2, g.kind.code), (20, 2, g.origin.code),
    (22, 3, g.verdict.code), (25, 4, g.probes.length), (29, 3, g.markList.length)]

/-- The record of a segment outcome, built at retirement (R158). A setting whose restore claim failed is absent (R196).
The fields of an absent order id, tag or setting, and of mark entries not in use, hold 0 (log 57). -/
def segmentRecord (g : Segment) : OutRecord where
  segment := true
  words :=
    let len := g.length.getD 0
    let ref := presentRef g.setting
    let number := (ref.map (·.number)).getD 0
    let version := (ref.map (·.version)).getD 0
    [ pack [(0, 24, g.seq), (24, 8, 1)],
      BitVec.ofNat 32 g.seq,
      g.tag.getD 0,
      pack [(0, 16, (g.orderId.getD 0).toNat), (16, 16, version)],
      segmentWord4 g number,
      low32 g.head,
      low32 len,
      pack [(0, 8, high8 g.head), (8, 8, high8 len), (16, 16, largest (·.unverified) g.probes)],
      markWord g.marks 0, markWord g.marks 8,
      worstWord g.worst 0, worstWord g.worst 4, worstWord g.worst 8, worstWord g.worst 12,
      pack [(0, 16, largest (·.cure) g.probes), (16, 16, largest (·.scorch) g.probes)],
      pack [(0, 8, g.furtherMarks), (8, 1, boolNat g.orderId.isSome), (9, 1, boolNat ref.isSome), (24, 8, 1)],
      pack (g.markList.zipIdx.map fun e => (8 * e.2, 8, e.1.code)) ] ++
    ((List.range 4).map fun k =>
      match g.markList[k]? with
      | some e => pack [(0, 24, markPosition e.position)]
      | none => 0) ++ List.replicate 11 0

/-- A rejection record with its rejection number and its word 2: the order id, the plan slot and the reason (R157). -/
def rejectionOf (number : BitVec 32) (orderId slot reason : Nat) : OutRecord where
  segment := false
  words :=
    [pack [(0, 24, number.toNat), (24, 8, 2)], number, pack [(0, 16, orderId), (16, 8, slot), (24, 4, reason)]] ++
      List.replicate 12 0 ++ [pack [(24, 8, 2)]] ++ List.replicate 16 0

/-- A rejection record (R158). -/
def rejectionRecord (number : BitVec 32) (orderId : BitVec 16) (slot : Nat) (reason : RejectReason) : OutRecord :=
  rejectionOf number orderId.toNat slot reason.code

/-- A segment outcome restored from words 1 to 16 of it: word 0 from its number, and each mark entry with the relative
position −8,388,608 (R157, R199). Bits that word 15 does not name are 0 (R198). -/
def restoredSegment (ws : List Word) : OutRecord where
  segment := true
  words :=
    let w15 := wordAt ws 14
    pack [(0, 24, (wordAt ws 0).toNat), (24, 8, 1)] :: (List.range 14).map (wordAt ws) ++
      [pack [(0, 10, fld w15 0 10), (24, 8, 1)], wordAt ws 15] ++
      ((List.range 4).map fun k => if k < fld (wordAt ws 3) 29 3 then pack [(0, 24, 8388608)] else 0) ++
      List.replicate 11 0

/-- A record restored from words 1 to 16 of it. A kind byte of neither kind is read as ORDER_REJECTED (log 21), so that a
kind word is never zero (R157). -/
def restoredRecord (ws : List Word) : OutRecord :=
  let w2 := wordAt ws 1
  if fld (wordAt ws 14) 24 8 = 1 then restoredSegment ws
  else rejectionOf (wordAt ws 0) (fld w2 0 16) (fld w2 16 8) (fld w2 24 4)

/-! ### Snapshot segments (R199) -/

/-- The last probe is the tail probe of a closed segment (R199, word 8 bit 7). -/
def tailProbe (g : Segment) : Bool :=
  match g.length, g.probes.getLast? with
  | some n, some p => decide (p.rel + 1 = n)
  | _, _ => false

/-- The setting reference of a segment: its own, or that of the continuation owed a SEAM segment carries. -/
def settingUsed (g : Segment) : Option SettingRef :=
  match g.contOwed with
  | some c => c.setting
  | none => g.setting

/-- The setting reference that stands in a snapshot segment. One whose restore claim failed is absent, and is not
claimed again (R79, R196, log 22). -/
def snapshotRef (g : Segment) : Option SettingRef := presentRef (settingUsed g)

/-- A segment in 32 words. The fields of an absent order id, tag, setting, length or planned end, and of probes and mark
entries not in use, hold 0 (log 57; of a length that is absent R199 says so). -/
def snapshotSegment (g : Segment) : List Word :=
  let len := g.length.getD 0
  let r := snapshotRef g
  let tag := match g.contOwed with
    | some c => c.tag
    | none => g.tag.getD 0
  let orderId := match g.contOwed with
    | some c => c.orderId
    | none => g.orderId.getD 0
  let planned := g.plannedEnd.getD 0
  [ BitVec.ofNat 32 g.seq, tag,
    pack [(0, 16, orderId.toNat), (16, 16, (r.map (·.version)).getD 0)],
    segmentWord4 g ((r.map (·.number)).getD 0),
    low32 g.head, low32 len, low32 planned,
    pack [(0, 8, high8 g.head), (8, 8, high8 len), (16, 8, high8 planned), (24, 8, g.furtherMarks)],
    pack [(0, 1, boolNat g.length.isSome), (1, 1, boolNat g.orderId.isSome), (2, 1, boolNat r.isSome),
      (3, 1, boolNat g.plannedEnd.isSome), (4, 3, (r.map (·.entry.val)).getD 0), (7, 1, boolNat (tailProbe g)),
      (8, 1, boolNat g.contOwed.isSome), (9, 1, boolNat ((g.contOwed.map (·.holdAtEnd)).getD false))],
    markWord g.marks 0, markWord g.marks 8,
    worstWord g.worst 0, worstWord g.worst 4, worstWord g.worst 8, worstWord g.worst 12,
    pack (g.probes.zipIdx.flatMap fun p => [(4 * p.2, 3, p.1.verdict.code), (4 * p.2 + 3, 1, boolNat p.1.cap)]) ] ++
  (match g.contOwed with
   | some c => [BitVec.ofNat 32 c.remaining, low32 c.plannedEnd, pack [(0, 8, high8 c.plannedEnd)]] ++ List.replicate 5 0
   | none => (List.range 8).map fun k =>
      match g.probes[k]? with
      | some p => pack [(0, 16, p.cure), (16, 16, p.scorch)]
      | none => 0) ++
  ((List.range 4).map fun k =>
    pack [(0, 16, (g.probes[2 * k]?.map (·.unverified)).getD 0),
      (16, 16, (g.probes[2 * k + 1]?.map (·.unverified)).getD 0)]) ++
  ((List.range 4).map fun k =>
    match g.markList[k]? with
    | some e => pack [(0, 24, markPosition e.position), (24, 8, e.code)]
    | none => 0)

/-- A screen mark from its four bits. -/
def decodeMark (w : Word) (i : Nat) : ScreenMark := ⟨MarkCode.ofCode (fld w (4 * i) 3), bit w (4 * i + 3)⟩

/-- Probe k of a snapshot segment of `n` probes, at k × the header's spacing, or at the tail (section 12.5); the last probe
of a record with no length and the tail probe bit set is at 0 (log 21). The probes keep the order of their words, wherever
the header's spacing places them (R126, log 55). -/
def decodeProbe (ws : List Word) (spacing n : Nat) (tail : Bool) (len : Option Nat) (k : Nat) : Probe where
  rel := if tail && decide (k + 1 = n) then len.getD 1 - 1 else k * spacing
  place := .before
  cure := fld (wordAt ws (16 + k)) 0 16
  scorch := fld (wordAt ws (16 + k)) 16 16
  unverified := fld (wordAt ws (24 + k / 2)) (16 * (k % 2)) 16
  verdict := Verdict.ofCode (fld (wordAt ws 15) (4 * k) 3)
  cap := bit (wordAt ws 15) (4 * k + 3)

/-- A segment from its 32 words, with the probe spacing of header word 13. It gets RESTORED (R195). The verdicts it has
gained are read from its probes and its own verdict (R132, log 51). A probe count above 8 is read as 8, a count of mark
entries above 4 as 4, and the continuation owed bit is followed in a record of any kind. A record with no continuation
owed keeps the probes it counts, an ENTERING one with 8 and a BLANK or SEAM one among them, and an optional field is
present where its bit says so, whatever the kind and origin (log 21). -/
def decodeSegment (spacing : Nat) (ws : List Word) : Segment :=
  let w8 := wordAt ws 8
  let w3 := wordAt ws 3
  let kind := SegKind.ofCode (fld w3 18 2)
  let orderId : BitVec 16 := (wordAt ws 2).extractLsb' 0 16
  let ref : Option SettingRef :=
    if bit w8 2 then some ⟨fld w3 0 9, BitVec.toFin (BitVec.ofNat 3 (fld w8 4 3)), fld (wordAt ws 2) 16 16, .lost⟩ else none
  let len : Option Nat := if bit w8 0 then some (pos40 (wordAt ws 5) (fld (wordAt ws 7) 8 8)) else none
  let owed := bit w8 8
  let probes := if owed then 0 else min 8 (fld w3 25 4)
  let held := (List.range probes).map (decodeProbe ws spacing probes (bit w8 7) len)
  let verdict := Verdict.ofCode (fld w3 22 3)
  let gained (v : Verdict) : Bool := decide (verdict = v) || held.any fun p => decide (p.verdict = v)
  { seq := (wordAt ws 0).toNat
    kind := kind
    origin := SegOrigin.ofCode (fld w3 20 2)
    orderId := if bit w8 1 then some orderId else none
    tag := if bit w8 1 then some (wordAt ws 1) else none
    setting := if owed then none else ref
    head := pos40 (wordAt ws 4) (fld (wordAt ws 7) 0 8)
    length := len
    plannedEnd := if bit w8 3 then some (pos40 (wordAt ws 6) (fld (wordAt ws 7) 16 8)) else none
    contOwed := if owed then
        some ⟨orderId, wordAt ws 1, ref, pos40 (wordAt ws 17) (fld (wordAt ws 18) 0 8), (wordAt ws 16).toNat, bit w8 9⟩
      else none
    flags := { SegFlags.ofNat (fld w3 9 9) with restored := true }
    marks := Bank.tabulate fun k => decodeMark (wordAt ws (9 + k.val / 8)) (k.val % 8)
    worst := Bank.tabulate fun k => fld (wordAt ws (11 + k.val / 4)) (8 * (k.val % 4)) 8
    probes := held
    markList := (List.range (min 4 (fld w3 29 3))).map fun k =>
      ⟨sfld (wordAt ws (28 + k)) 0 24, fld (wordAt ws (28 + k)) 24 8⟩
    furtherMarks := fld (wordAt ws 7) 24 8
    verdict := verdict
    truncated := false
    gainedUnder := gained .undercured
    gainedOver := gained .overcured }

/-! ### Snapshot header and restoration (R192, R194, section 12.5) -/

/-- The boundary state code, whether it is deferred for the cache, and its position at H = h. -/
def Boundary.code : Boundary → Nat
  | .opened _ => 0
  | .deferred _ => 1
  | .waiting _ => 2

def Boundary.position (h : Nat) : Boundary → Option Nat
  | .opened due => due
  | .deferred _ => some h
  | .waiting b => some b

/-- The index of a segment in the track, by sequence number. -/
def segIndex (segs : List Segment) (seq : Nat) : Nat := segs.findIdx fun g => g.seq == seq

/-- A pending seam in two words; the index of an absorbing segment is 0 where there is none (log 57). -/
def seamWords (segs : List Segment) (e : PendingSeam) : List Word :=
  [low32 e.due,
   pack [(0, 8, high8 e.due), (8, 1, boolNat e.absorbedBy.isSome), (15, 1, 1),
    (16, 6, (e.absorbedBy.map (segIndex segs)).getD 0)]]

/-- The staged order in four words, all 0 where there is none (log 57). -/
def stagedWords : Option StagedOrder → List Word
  | none => List.replicate 4 (0 : Word)
  | some o =>
    [orderWord0 o, BitVec.ofNat 32 o.length, o.tag, pack [(0, 16, o.orderId.toNat), (16, 8, o.slot), (31, 1, 1)]]

/-- Words 0 to 63 of the snapshot (section 12.5). A boundary position, a debounce reference, a staged order and pending
seams that are absent stand as 0 (log 57). -/
def snapshotHeader (x : Ctx) (b : Blocks) (generation : BitVec 16) : List Word :=
  let t := b.track
  let pos := t.boundary.position x.motion.h
  [ pack [(0, 16, generation.toNat)],
    pack [(0, 7, t.segs.length), (8, 4, b.report.queue.length), (16, 2, t.boundary.code),
      (18, 1, boolNat (decide (t.boundary = .deferred true))), (19, 1, boolNat pos.isSome),
      (20, 1, boolNat t.starvedHold), (21, 1, boolNat t.debounce.isSome)],
    low32 x.motion.h, pack [(0, 8, high8 x.motion.h)],
    low32 (pos.getD 0), pack [(0, 8, high8 (pos.getD 0))],
    low32 (t.debounce.getD 0), pack [(0, 8, high8 (t.debounce.getD 0))],
    BitVec.ofNat 32 t.seqCounter,
    pack [(0, 8, b.plan.postIndex), (8, 8, b.plan.takeIndex), (16, 9, b.plan.posted)],
    pack [(0, 7, b.report.writeIndex)],
    pack [(0, 16, t.ignoredEdges), (16, 16, t.droppedSeams)],
    pack [(0, 16, t.absorbedSeams)],
    BitVec.ofNat 32 x.cfg.probeSpacing ] ++ List.replicate 18 (0 : Word) ++
  stagedWords b.plan.staged ++
  ((List.range 4).flatMap fun k =>
    match t.seams[k]? with
    | some e => seamWords t.segs e
    | none => ([0, 0] : List Word)) ++ List.replicate 20 (0 : Word)

/-- The runs of words cut into bursts of 8, at rising offsets. -/
def bursts (offset : Nat) : Nat → List Word → List Burst
  | 0, _ => []
  | n + 1, ws => ⟨offset, ws.take 8⟩ :: bursts (offset + 8) n (ws.drop 8)

/-- The accesses of a snapshot write in order (R192). -/
def snapshotBursts (x : Ctx) (b : Blocks) (generation : BitVec 16) : List Burst :=
  bursts 0 8 (snapshotHeader x b generation) ++
    (b.track.segs.zipIdx.flatMap fun g => bursts (64 + 32 * g.2) 4 (snapshotSegment g.1)) ++
    (b.report.queue.zipIdx.flatMap fun r => bursts (2112 + 16 * r.2) 2 ((r.1.words.drop 1).take 16)) ++
    [⟨2240, [closingWord generation]⟩]

/-- The numbers of segments and of queued records a snapshot header counts, as far as the window holds them (log 21). -/
def snapshotSegCount (ws : List Word) : Nat := fld (wordAt ws 1) 0 7
def snapshotQueueCount (ws : List Word) : Nat := fld (wordAt ws 1) 8 4
def snapshotSegRead (ws : List Word) : Nat := min 64 (snapshotSegCount ws)
def snapshotQueueRead (ws : List Word) : Nat := min 8 (snapshotQueueCount ws)

/-- The window offset and length of the read that follows `n` words already read of a snapshot: the header, the
segments, the queued records, and last the closing word (R194). -/
def snapshotNext (ws : List Word) : Nat × Nat :=
  let n := ws.length
  let segEnd := 64 + 32 * snapshotSegRead ws
  if n < 64 then (n, 8)
  else if n < segEnd then (n, 8)
  else if n < segEnd + 16 * snapshotQueueRead ws then (2112 + (n - segEnd), 8)
  else (2240, 1)

/-- All the words of the snapshot have been read. -/
def snapshotDone (ws : List Word) : Bool :=
  decide (64 ≤ ws.length ∧ 64 + 32 * snapshotSegRead ws + 16 * snapshotQueueRead ws + 1 ≤ ws.length)

/-- The state a snapshot saves, decoded. -/
structure SnapshotData where
  generation : BitVec 16
  h          : Nat
  segs       : List Segment
  boundary   : Boundary
  seams      : List PendingSeam
  debounce   : Option Nat
  seqCounter : Nat
  starved    : Bool
  ignored    : Nat
  dropped    : Nat
  absorbed   : Nat
  staged     : Option StagedOrder
  postIndex  : Nat
  takeIndex  : Nat
  posted     : Nat
  queue      : List OutRecord
  writeIndex : Nat
  deriving DecidableEq, Repr

/-- The boundary record of a snapshot header (R198, section 12.5). The position-present bit 19 is read of an OPEN boundary,
whose due end may be absent, and the cache bit 18 of a DEFERRED one, whose position follows H (R26). DESIGN CHOICE
(log 21): a WAITING boundary takes the position words whether or not bit 19 is set, a header to which the spec gives no
reading where it is clear; and state 3, which no code names, is read as WAITING. -/
def decodeBoundary (ws : List Word) : Boundary :=
  let w := wordAt ws 1
  let pos := pos40 (wordAt ws 4) (fld (wordAt ws 5) 0 8)
  match fld w 16 2 with
  | 0 => .opened (if bit w 19 then some pos else none)
  | 1 => .deferred (bit w 18)
  | _ => .waiting pos

/-- The pending seams of a snapshot, in the order of their words. One whose absorbing index names no segment of it is
PENDING (log 21). -/
def decodeSeams (segs : List Segment) (ws : List Word) : List PendingSeam :=
  (List.range 4).filterMap fun k =>
    let w := wordAt ws (37 + 2 * k)
    if bit w 15 then
      some ⟨pos40 (wordAt ws (36 + 2 * k)) (fld w 0 8),
        if bit w 8 then segs[fld w 16 6]?.map (·.seq) else none⟩
    else none

/-- The staged order of a snapshot. One with a reserved kind code is taken as absent, and a setting number of 512 to 1023,
a length and a slot number are taken as they read (log 21). -/
def decodeStaged (ws : List Word) : Option StagedOrder :=
  let w := wordAt ws 35
  if bit w 31 then
    (OrderKind.ofCode (fld (wordAt ws 32) 0 4)).map fun k =>
      orderOf k (fld w 16 8) (wordAt ws 32) (wordAt ws 33) (wordAt ws 34) (w.extractLsb' 0 16)
  else none

/-- A snapshot from its words in the order in which they were read. -/
def decodeSnapshot (ws : List Word) : SnapshotData :=
  let n := snapshotSegRead ws
  let segs := (List.range n).map fun i =>
    decodeSegment (wordAt ws 13).toNat ((ws.drop (64 + 32 * i)).take 32)
  { generation := (wordAt ws 0).extractLsb' 0 16
    h := pos40 (wordAt ws 2) (fld (wordAt ws 3) 0 8)
    segs := segs
    boundary := decodeBoundary ws
    seams := decodeSeams segs ws
    debounce := if bit (wordAt ws 1) 21 then some (pos40 (wordAt ws 6) (fld (wordAt ws 7) 0 8)) else none
    seqCounter := (wordAt ws 8).toNat
    starved := bit (wordAt ws 1) 20
    ignored := fld (wordAt ws 11) 0 16
    dropped := fld (wordAt ws 11) 16 16
    absorbed := fld (wordAt ws 12) 0 16
    staged := decodeStaged ws
    postIndex := fld (wordAt ws 9) 0 8
    takeIndex := fld (wordAt ws 9) 8 8
    posted := fld (wordAt ws 9) 16 9
    queue := (List.range (snapshotQueueRead ws)).map fun j =>
      restoredRecord ((ws.drop (64 + 32 * n + 16 * j)).take 16)
    writeIndex := fld (wordAt ws 10) 0 7 }

/-- Exactly one segment is ENTERING, and it is the newest; heads are contiguous, closed lengths at least 1, and
sequence numbers strictly increase (R18, R194). -/
def segmentsOk : List Segment → Bool
  | [] => false
  | [g] => g.length.isNone
  | g :: g' :: r =>
    match g.length with
    | none => false
    | some n => decide (1 ≤ n ∧ g'.head = g.head + n ∧ g.seq < g'.seq) && segmentsOk (g' :: r)

/-- The posted count equals the slots from the take index up to the post index; equal indices mean 0 or N (R50). -/
def ringOk (slots post take posted : Nat) : Bool :=
  decide (post < slots ∧ take < slots ∧ posted ≤ slots ∧ (take + posted) % slots = post)

/-- The conditions of R194 under the new anchor. -/
def snapshotValid (c : Anchor) (ws : List Word) : Bool :=
  let d := decodeSnapshot ws
  let close := ws.getLastD 0
  validClosing close && decide (closingId close = d.generation) &&
    decide (1 ≤ snapshotSegCount ws ∧ snapshotSegCount ws ≤ 64 ∧ snapshotQueueCount ws ≤ 8) && segmentsOk d.segs &&
    ringOk c.planSlots d.postIndex d.takeIndex d.posted && decide (d.writeIndex < c.outcomeSlots) &&
    decide (0 ≤ (d.h : Int) + c.restartCorrection ∧ (d.h : Int) + c.restartCorrection < Config.positions)

/-! ### Field-line frames (R146, R147, R200) -/

/-- A frame with its CRC-8 as last byte. -/
def frameWithCrc (bytes : List Byte) : List Byte := bytes ++ [crc8 bytes]

/-- The command frame of a screen module. Bits that the table of R200 does not name are sent as 0 (log 53). -/
def screenFrame (address : Nat) (down selector : Bool) (phase paste : Nat) : List Byte :=
  frameWithCrc
    [byteOf address, byteOf (boolNat down + 2 * boolNat selector), byteOf (phase / 65536 % 4), byteOf (phase / 256),
     byteOf phase, byteOf (paste / 256), byteOf paste]

/-- The command frame of a zone module. Bits that the table of R200 does not name are sent as 0 (log 53). -/
def zoneFrame (address : Nat) (mode : ZoneMode) (selector : Bool) (setpoint air : Nat) : List Byte :=
  frameWithCrc
    [byteOf address, byteOf (mode.code + 4 * boolNat selector), byteOf (setpoint / 256), byteOf setpoint,
     byteOf (air % 16)]

/-- The contents of a reply that passes checks 1 to 4 of R147, or none where check 5 fails, with the item value. -/
def replyContents (screen selector : Bool) (b2 b3 b4 b5 b6 : Byte) : Option (GoodReply × Nat) :=
  if b2.getLsbD 3 ≠ selector then none
  else if screen then
    (LiftPosition.ofCode (b2.toNat % 4)).map fun p =>
      (.screen p (signed 16 (beNat b3 b4)) (b2.getLsbD 2), beNat b5 b6)
  else if beNat b3 b4 ≤ 2500 then some (.zone (beNat b3 b4) (b2.getLsbD 2), beNat b5 b6)
  else none

/-- The checks of R147 in order for the module addressed. -/
def judgeReply (address : Nat) (screen selector framing : Bool) (bytes : List Byte) : Except MissReason (GoodReply × Nat) :=
  if framing then .error .framing
  else
    match bytes with
    | [b1, b2, b3, b4, b5, b6, b7] =>
      if crc8 [b1, b2, b3, b4, b5, b6] ≠ b7 then .error .crc
      else if b1.toNat ≠ address then .error .address
      else
        match replyContents screen selector b2 b3 b4 b5 b6 with
        | some r => .ok r
        | none => .error .content
    | _ => .error .length

end Sys2Proof.Machine
end

