-- ==== Sys2Proof/Machine/Fabric.lean ====
section
/-! DEFINITION. Reading the track by fabric coordinate, the setting of a segment, seam spans, the retirement queue's
intake, and snapshot triggers: what several blocks share. -/

namespace Sys2Proof.Machine

/-! ### Segments by coordinate and by number -/

/-- The segment holds coordinate `f` (R90, R101). The ENTERING segment holds what lies from its head onward, below the
position of a WAITING boundary. -/
def covers (bd : Boundary) (f : Nat) (g : Segment) : Bool :=
  decide (g.head ≤ f) &&
    match g.length, bd with
    | some n, _ => decide (f < g.head + n)
    | none, .waiting p => decide (f < p)
    | none, _ => true

/-- The segment that holds a coordinate. -/
def Track.segmentAt (t : Track) (f : Nat) : Option Segment := t.segs.find? (covers t.boundary f)

/-- The fabric coordinate under a point at an offset, none where it is negative. -/
def coordinate (h offset : Nat) : Option Nat := if offset ≤ h then some (h - offset) else none

/-- What the track holds at a coordinate (R101, R121). -/
def Track.holdingAt (t : Track) : Option Nat → Holding
  | none => .before
  | some f =>
    match t.segmentAt f with
    | some g => .segment g.seq
    | none =>
      match t.boundary with
      | .waiting p => if p ≤ f then .gap else .before
      | _ => .before

/-- The segment of a sequence number. -/
def Track.find (t : Track) (q : Nat) : Option Segment := t.segs.find? fun g => g.seq == q

/-- The ENTERING segment: the newest, its length open (R18). -/
def Track.entering (t : Track) : Option Segment :=
  match t.segs.getLast? with
  | some g => if g.length.isNone then some g else none
  | none => none

/-- A change of the segment of a sequence number. -/
def modSeg (q : Nat) (f : Segment → Segment) (t : Track) : Track :=
  { t with segs := t.segs.map fun g => if g.seq = q then f g else g }

/-- A change of a segment's flags. -/
def modFlags (f : SegFlags → SegFlags) (g : Segment) : Segment := { g with flags := f g.flags }

/-! ### The setting of a segment (R78, R196) -/

/-- The decoded setting a reference reaches. A reference whose restore claim has not completed or has failed reaches
none. -/
def settingOf (c : Cache) : Option SettingRef → Option Setting
  | some r => if r.link = .held then c.entries[r.entry].contents else none
  | none => none

/-- The setting of the fabric of a segment: of PRINT segments alone. -/
def segSetting (c : Cache) (g : Segment) : Option Setting :=
  if g.kind = .print then settingOf c g.setting else none

/-! ### Seam spans (R102) -/

/-- The seams that have a span: head and tail of each SEAM segment and of each entry of the pending seam list. -/
def seamRanges (seamLength : Nat) (t : Track) : List (Nat × Nat) :=
  (t.segs.filter fun g => g.kind = .seam).map (fun g =>
    (g.head, match g.length with
      | some n => g.head + n
      | none => g.plannedEnd.getD g.head)) ++
  t.seams.map fun e => (e.due, e.due + seamLength)

/-- A seam span of a screen covers a coordinate: from seam head − lead to below seam tail + lag. -/
def inSpan (m : MountRecord) (ranges : List (Nat × Nat)) (f : Nat) : Bool :=
  ranges.any fun s => decide (s.1 ≤ f + m.lead ∧ f < s.2 + m.lag)

/-! ### The retirement queue's intake (R158, R159, R160) -/

/-- A record that finds the queue full is lost. -/
def loseRecord (r : OutRecord) (p : Report) : Report :=
  if r.segment then { p with outcomesLost := p.outcomesLost + 1 } else { p with rejectionsLost := p.rejectionsLost + 1 }

/-- A record joins the queue at its newest end, or is lost (R159). -/
def queueRecord (r : OutRecord) (b : Blocks) : Blocks :=
  if b.report.queue.length < Config.queuePlaces then
    let b' := b.modReport fun p => { p with queue := p.queue ++ [r] }
    if b'.report.queue.length = 4 then raise .outcomeBacklog 0 b' else b'
  else raise .outcomeLost 0 (b.modReport (loseRecord r))

/-- A retired segment is handed to the report unit (R43, R158, R160). -/
def reportRetired (g : Segment) (b : Blocks) : Blocks :=
  queueRecord (segmentRecord g) (b.modReport fun p => { p with retired := p.retired + 1 })

/-- A rejection is handed to the report unit (R57, R61, R158). The rejection number is the count after it has risen. -/
def reportRejected (id : BitVec 16) (slot : Nat) (reason : RejectReason) (b : Blocks) : Blocks :=
  queueRecord (rejectionRecord (b.report.rejections + 1) id slot reason)
    (b.modReport fun p => { p with rejections := p.rejections + 1 })

/-! ### Snapshot triggers (R193) -/

/-- A snapshot write begins: it joins the restart unit's work, and the distance mark moves on. -/
def beginSnapshot (x : Ctx) (r : Restart) : Restart :=
  { r with
    work := r.work ++ [.snapshot]
    distanceMark := position x.motion.h (x.motion.h + x.cfg.snapshotDistance) }

/-- A snapshot trigger (R193). A write is in progress from its beginning to its closing word (log 35). -/
def trigger (x : Ctx) (b : Blocks) : Blocks :=
  b.modRestart fun r =>
    match r.part with
    | .armed => if r.work.contains .snapshot then { r with snapshotPending := true } else beginSnapshot x r
    | .arming true => { r with snapshotPending := true }
    | .arming false | .dormant => r

/-- The restart unit at an H advance: the distance trigger. -/
def restartAdvance (x : Ctx) (b : Blocks) : Blocks :=
  if x.motion.h = b.restart.distanceMark then
    trigger x (b.modRestart fun r =>
      { r with distanceMark := position x.motion.h (x.motion.h + x.cfg.snapshotDistance) })
  else b

end Sys2Proof.Machine
end

