-- ==== Sys2Proof/Machine/Oven.lean ====
section
/-! DEFINITION. The oven unit (07): zone boundaries and setpoints, cure probes, exposure, verdicts and the dwell
monitor. -/

namespace Sys2Proof.Machine

/-- A zone is listed in the anchor in force (R119). -/
def listed (c : Anchor) (z : Fin 8) : Bool := decide (z.val < c.zoneCount)

/-- A change of one zone record. -/
def modZone (z : Fin 8) (f : Zone → Zone) (b : Blocks) : Blocks :=
  b.modOven fun o => { o with zone := Bank.modify o.zone z f }

/-- A change of every listed zone record. -/
def modZones (c : Anchor) (f : Zone → Zone) (o : Oven) : Oven :=
  { o with zone := Bank.tabulate fun z => if listed c z then f o.zone[z] else o.zone[z] }

/-! ### Zone boundaries and setpoints (R121 to R124) -/

/-- The choice of run setpoint and air level at a zone boundary (R122). -/
def chooseSetpoint (z : Fin 8) (t : Option Setting) (r : Zone) : Zone :=
  match t with
  | some t => { r with runSet := t.setpoint[z], source := .profile, runAir := t.air[z] }
  | none => { r with source := .held }

/-- A zone takes its holding from the track; a segment other than the one last recorded is a zone boundary (R121). -/
def refreshZone (x : Ctx) (b : Blocks) (z : Fin 8) : Blocks :=
  let new := b.track.holdingAt (coordinate x.motion.h x.cfg.zoneEntry[z])
  match new with
  | .segment q =>
    if b.oven.zone[z].recorded = some q then modZone z (fun r => { r with holding := new }) b
    else
      let t := (b.track.find q).bind (segSetting b.cache)
      modZone z (fun r => chooseSetpoint z t { r with holding := new, recorded := some q }) b
  | .gap | .before => modZone z (fun r => { r with holding := new }) b

/-- The listed zones. -/
def listedZones (c : Anchor) : List (Fin 8) := zones.filter (listed c)

/-- Every listed zone takes its holding from the track. -/
def refreshZones (x : Ctx) (b : Blocks) : Blocks := (listedZones x.cfg).foldl (refreshZone x) b

/-- The setpoint in force with its source (R120). -/
def setpointInForce (c : Anchor) (r : Zone) : Nat × SetpointSource :=
  match r.mode with
  | .run => (r.runSet, r.source)
  | .standby | .vent => (c.standbySetpoint, .standby)

/-- The air level sent (R124). -/
def airSent (r : Zone) : Nat := if r.mode = .vent then 15 else r.runAir

/-! ### Places of probes (R119, R129) -/

/-- The place at an offset from entry. -/
def placeAt (c : Anchor) (off : Nat) : Place :=
  if c.ovenExit ≤ off then .after
  else
    match ((listedZones c).filter fun z => decide (c.zoneEntry[z] ≤ off)).getLast? with
    | some z => .zone z
    | none => .before

/-- The place of a fabric coordinate at H. A coordinate not yet entered lies before the oven. -/
def placeOf (x : Ctx) (f : Nat) : Place :=
  match coordinate x.motion.h f with
  | some off => placeAt x.cfg off
  | none => .before

def Place.inZone : Place → Bool
  | .zone _ => true
  | .before | .after => false

/-! ### Verdicts (R131, R132) -/

/-- The rank of a verdict, worst highest. -/
def Verdict.rank : Verdict → Nat
  | .overcured => 4
  | .undercured => 3
  | .unverified => 2
  | .cured => 1
  | .pending | .notApplicable => 0

/-- A segment's verdict after a probe of it has received one. -/
def Verdict.worse (old new : Verdict) : Verdict := if old.rank < new.rank then new else old

/-- The oven unit's count of a verdict rises. -/
def countVerdict (v : Verdict) (o : Oven) : Oven :=
  match v with
  | .cured => { o with cured := inc32 o.cured }
  | .unverified => { o with unverified := inc32 o.unverified }
  | .undercured => { o with undercured := inc32 o.undercured }
  | .overcured => { o with overcured := inc32 o.overcured }
  | .pending | .notApplicable => o

/-- A change of the probe of a segment at a relative position. Two restored probes at one position change together
(R126, log 55). -/
def modProbe (rel : Nat) (f : Probe → Probe) (g : Segment) : Segment :=
  { g with probes := g.probes.map fun p => if p.rel = rel then f p else p }

/-- A segment has gained a probe with verdict UNDERCURED, or OVERCURED (R132). -/
def Segment.hasGained (g : Segment) (v : Verdict) : Bool :=
  (g.gainedUnder && decide (v = .undercured)) || (g.gainedOver && decide (v = .overcured))

/-- A segment gains a probe's verdict: its own verdict is the worst (R132). -/
def Segment.gain (v : Verdict) (g : Segment) : Segment :=
  { g with
    verdict := g.verdict.worse v
    gainedUnder := g.gainedUnder || decide (v = .undercured)
    gainedOver := g.gainedOver || decide (v = .overcured) }

/-- A probe receives its verdict: the count, the segment's verdict, and UNDERCURE or OVERCURE at the segment's first. -/
def giveVerdict (source q rel : Nat) (v : Verdict) (b : Blocks) : Blocks :=
  let had := match b.track.find q with
    | some g => g.hasGained v
    | none => true
  let b' := (b.modTrack (modSeg q fun g =>
      (modProbe rel (fun p => { p with verdict := v }) g).gain v)).modOven (countVerdict v)
  match v with
  | .undercured => if had then b' else raise .undercure source b'
  | .overcured => if had then b' else raise .overcure source b'
  | .cured | .unverified | .pending | .notApplicable => b'

/-- The judgement of a probe (R131). -/
def judgeProbe (t : Option Setting) (p : Probe) : Verdict :=
  match t with
  | none => .unverified
  | some t =>
    if t.scorchTime < p.scorch then .overcured
    else if t.cureTime ≤ p.cure then (if p.cap then .unverified else .cured)
    else if t.cureTime ≤ p.cure + p.unverified then .unverified
    else .undercured

/-- A probe takes its place at H, and is judged where that is past the oven exit and it has no verdict yet (R129). The
source of its cause is Z, also where it was in no zone before (R132, log 51). -/
def placeProbe (x : Ctx) (b : Blocks) (q rel : Nat) : Blocks :=
  match b.track.find q with
  | none => b
  | some g =>
    match g.probes.find? fun p => p.rel == rel with
    | none => b
    | some p =>
      let pl := placeOf x (g.head + rel)
      let b' := b.modTrack (modSeg q (modProbe rel fun p => { p with place := pl }))
      if pl = .after ∧ p.verdict = .pending then
        giveVerdict x.cfg.zoneCount q rel (judgeProbe (segSetting b.cache g) p) b'
      else b'

/-- The probes of the track: oldest segment first and, within one, lowest relative position first. -/
def probeIds (t : Track) : List (Nat × Nat) := t.segs.flatMap fun g => g.probes.map fun p => (g.seq, p.rel)

/-- Every probe takes its place at H (R129). -/
def placeProbes (x : Ctx) (b : Blocks) : Blocks := (probeIds b.track).foldl (fun b i => placeProbe x b i.1 i.2) b

/-! ### Creation and completion of probes (R127, R128) -/

/-- A new probe. -/
def Probe.new (rel : Nat) : Probe := ⟨rel, .before, 0, 0, 0, .pending, false⟩

/-- A probe joins its segment's list in the order of relative position. -/
def insertProbe (rel : Nat) (ps : List Probe) : List Probe :=
  ps.takeWhile (fun p => p.rel < rel) ++ [Probe.new rel] ++ ps.dropWhile (fun p => p.rel < rel)

/-- A probe is created and placed. -/
def createProbe (x : Ctx) (q rel : Nat) (b : Blocks) : Blocks :=
  placeProbe x (b.modTrack (modSeg q fun g => { g with probes := insertProbe rel g.probes })) q rel

/-- A relative position lies below a WAITING boundary (R127). -/
def belowWaiting (bd : Boundary) (head rel : Nat) : Bool :=
  match bd with
  | .waiting p => decide (head + rel < p)
  | .opened _ | .deferred _ => true

/-- The probe at k spacings of the ENTERING PRINT segment, once its unit has crossed entry (R127). -/
def growProbe (x : Ctx) (b : Blocks) (k : Nat) : Blocks :=
  match b.track.entering with
  | none => b
  | some g =>
    let rel := k * x.cfg.probeSpacing
    if g.kind = .print ∧ g.head + rel < x.motion.h ∧ g.probes.length < 7 ∧
        (g.probes.all fun p => decide (p.rel ≠ rel)) ∧ belowWaiting b.track.boundary g.head rel then
      createProbe x g.seq rel b
    else b

/-- The admission of a PRINT segment (R127). -/
def ovenAdmitted (x : Ctx) (g : Segment) (b : Blocks) : Blocks :=
  if g.kind = .print then createProbe x g.seq 0 b else b

/-- The closure of a PRINT segment at length n (R128). -/
def ovenClosed (x : Ctx) (q n : Nat) (b : Blocks) : Blocks :=
  let b := b.modTrack (modSeg q fun g => { g with probes := g.probes.filter fun p => decide (p.rel < n) })
  let b := match b.track.find q with
    | some g =>
      (match g.probes.getLast? with
       | some p => if p.rel + 1 < n then createProbe x q (n - 1) b else b
       | none => createProbe x q (n - 1) b)
    | none => b
  if 7 * x.cfg.probeSpacing < n then
    (b.modTrack (modSeg q (modFlags fun f => { f with coverageShort := true }))).modOven fun o =>
      { o with coverageShort := inc16 o.coverageShort }
  else b

/-- The oven unit at an H advance: zone boundaries, probe movement, probe creation. -/
def ovenAdvance (x : Ctx) (b : Blocks) : Blocks :=
  [1, 2, 3, 4, 5, 6].foldl (growProbe x) (placeProbes x (refreshZones x b))

/-! ### Exposure and the dwell monitor (R130, R133 to R137) -/

/-- A unit of 0.1 s, saturating. -/
def credit (yes : Bool) (n : Nat) : Nat := if yes then inc16 n else n

/-- The credit of one expiry to a probe in a listed zone (R130). -/
def creditProbe (o : Oven) (f : FieldLine) (t : Option Setting) (p : Probe) : Probe :=
  match p.place with
  | .before | .after => p
  | .zone z =>
    match t with
    | some t =>
      if f.module[z.val + 16].online then
        { p with
          cure := credit (decide (t.cureTemp ≤ o.zone[z].temp)) p.cure
          scorch := credit (decide (t.scorchTemp ≤ o.zone[z].temp)) p.scorch }
      else { p with unverified := inc16 p.unverified }
    | none => { p with unverified := inc16 p.unverified }

/-- Every probe is credited (R130). -/
def creditProbes (b : Blocks) : Blocks :=
  b.modTrack fun t => { t with segs := t.segs.map fun g =>
    { g with probes := g.probes.map (creditProbe b.oven b.field (segSetting b.cache g)) } }

/-- The number of probes in listed zones. -/
def probesInZones (t : Track) : Nat := ((t.segs.flatMap (·.probes)).filter fun p => p.place.inZone).length

/-- Stage 1 (R134). -/
def enterStandby (c : Anchor) (b : Blocks) : Blocks :=
  raise .ovenStandby 0 (b.modOven fun o =>
    let o := modZones c (fun r => if r.mode = .run then { r with mode := .standby } else r) o
    { o with dwellStage := 1, standbys := inc16 o.standbys })

/-- The probes that VENT forces: in a listed zone, with verdict PENDING, with the number of the zone (R135). -/
def forcedProbes (t : Track) : List (Nat × Nat × Nat) :=
  t.segs.flatMap fun g => g.probes.filterMap fun p =>
    match p.place with
    | .zone z => if p.verdict = .pending then some (z.val + 1, g.seq, p.rel) else none
    | .before | .after => none

/-- Stage 2 (R135). -/
def enterVent (c : Anchor) (b : Blocks) : Blocks :=
  let b := b.modOven fun o => { modZones c (fun r => { r with mode := .vent }) o with dwellStage := 2 }
  let b := (forcedProbes b.track).foldl (fun b i => giveVerdict i.1 i.2.1 i.2.2 .overcured b) b
  (raise .ovenVent 0 b).modOven fun o => { o with vents := inc16 o.vents }

/-- The dwell monitor at an expiry (R133). -/
def dwellTick (x : Ctx) (b : Blocks) : Blocks :=
  if x.motion.state ≠ .advancing ∧ 0 < probesInZones b.track ∧ b.oven.dwellStage < 2 then
    let b := b.modOven fun o => { o with dwellCount := o.dwellCount + 1 }
    if b.oven.dwellStage = 0 ∧ 10 * x.cfg.stage1 ≤ b.oven.dwellCount then enterStandby x.cfg b
    else if b.oven.dwellStage = 1 ∧ 10 * x.cfg.stage2 ≤ b.oven.dwellCount then enterVent x.cfg b
    else b
  else b

/-- The accounting timer expires: credits, then the dwell monitor (R130). -/
def accountingTick (x : Ctx) (b : Blocks) : Blocks := dwellTick x (creditProbes b)

/-- Entry to ADVANCING (R136). -/
def ovenAdvancing (c : Anchor) (b : Blocks) : Blocks :=
  b.modOven fun o =>
    { modZones c (fun r => if r.mode = .standby then { r with mode := .run } else r) o with
      dwellCount := 0, dwellStage := 0 }

/-- A ZONE_SET cue (R123). -/
def zoneSet (z : Fin 8) (value : Nat) (b : Blocks) : Blocks :=
  modZone z (fun r => { r with runSet := value, source := .cue }) b

/-- A good reply from a zone module (R125). -/
def zoneReply (z : Fin 8) (temp : Nat) (b : Blocks) : Blocks := modZone z (fun r => { r with temp := temp }) b

/-! ### Restored probes (R138) -/

/-- A restored probe takes its place; one inside the oven with verdict PENDING gets the restart gap and the cap. -/
def restoreProbe (x : Ctx) (b : Blocks) (q rel : Nat) : Blocks :=
  (placeProbe x b q rel).modTrack (modSeg q (modProbe rel fun p =>
    if p.place.inZone ∧ p.verdict = .pending then
      { p with unverified := satAdd 65535 p.unverified x.cfg.restartGap, cap := true }
    else p))

/-- The restored probes are placed at the corrected H, those of one position together (log 55). -/
def restoreProbes (x : Ctx) (b : Blocks) : Blocks :=
  (probeIds b.track).eraseDups.foldl (fun b i => restoreProbe x b i.1 i.2) b

end Sys2Proof.Machine
end

