-- ==== Sys2Proof/Machine/Stations.lean ====
section
/-! DEFINITION. The screen stations (06): holding, want, the lift machine, repeats, print accounting, the items of a
command frame, trims and remounts. -/

namespace Sys2Proof.Machine

/-- The source number of screen k. -/
def screenSource (k : Fin 16) : Nat := k.val + 1

/-- A change of one station. -/
def modStation (k : Fin 16) (f : Station → Station) (b : Blocks) : Blocks :=
  b.modStations fun s => { s with station := Bank.modify s.station k f }

/-- The station of screen k. -/
def Blocks.stationOf (b : Blocks) (k : Fin 16) : Station := b.stations.station[k]

/-- The fabric coordinate under screen k (R101). -/
def stationCoordinate (x : Ctx) (k : Fin 16) : Option Nat := coordinate x.motion.h x.cfg.screenOffset[k]

/-! ### Want (R102, R103) -/

/-- The unit under screen k is fabric to print: PRINT, engaged, outside every seam span, no LIFT override in force
(R102, R115). The spans of a screen that is not mounted are bounded by its record's lead and lag (log 49). -/
def printsHere (x : Ctx) (b : Blocks) (k : Fin 16) : Bool :=
  let st := b.stationOf k
  match st.holding, stationCoordinate x k with
  | .segment q, some f =>
    (match b.track.find q with
     | some g =>
       (match segSetting b.cache g with
        | some t => t.engages k
        | none => false)
     | none => false) &&
    !inSpan st.mount (seamRanges x.cfg.seamLength b.track) f && st.override.isNone
  | _, _ => false

/-- A lift state is FAULT. -/
def LiftState.isFault : LiftState → Bool
  | .fault _ => true
  | .lifted | .lowering | .engaged | .lifting => false

/-- The want of screen k (R102). -/
def wantOf (x : Ctx) (b : Blocks) (k : Fin 16) : Want :=
  let st := b.stationOf k
  if st.mount.mounted && b.field.module[k.val].online && !st.lift.isFault && printsHere x b k then .down else .up

/-- A change of want taken by the lift machine (R104). -/
def liftWant (timeout : Nat) (w : Want) (st : Station) : Station :=
  match st.lift, w with
  | .lifted, .down => { st with lift := .lowering, liftTimer := some timeout }
  | .lowering, .up | .engaged, .up => { st with lift := .lifting, liftTimer := some timeout }
  | _, _ => st

/-- The station evaluates its want, and a change of it goes to the lift machine of a mounted screen (R103). -/
def evaluateWant (x : Ctx) (b : Blocks) (k : Fin 16) : Blocks :=
  let w := wantOf x b k
  if w = (b.stationOf k).want then b
  else modStation k (fun st => liftWant b.stations.liftTimeout w { st with want := w }) b

/-- Every station evaluates its want. -/
def evaluateWants (x : Ctx) (b : Blocks) : Blocks := screens.foldl (evaluateWant x) b

/-! ### The lift machine (R104 to R107) -/

/-- Entry to FAULT stops the lift timer (R106). -/
def enterFault (reason : FaultReason) (st : Station) : Station := { st with lift := .fault reason, liftTimer := none }

/-- A fault for an unexpected report (R104). -/
def liftUnexpected (x : Ctx) (k : Fin 16) (b : Blocks) : Blocks :=
  let b' := (modStation k (enterFault .unexpected) b).modStations fun s => { s with liftFaults := inc16 s.liftFaults }
  evaluateWant x (raise .liftFault (screenSource k) b') k

/-- A lift report taken by the machine (R104, R105). -/
def liftReport (x : Ctx) (k : Fin 16) (r : LiftPosition) (b : Blocks) : Blocks :=
  let timeout := b.stations.liftTimeout
  match (b.stationOf k).lift, r with
  | .lifted, .down | .lifted, .moving | .engaged, .up | .engaged, .moving => liftUnexpected x k b
  | .lowering, .down => modStation k (fun st => { st with lift := .engaged, liftTimer := none }) b
  | .lifting, .up =>
    modStation k (fun st =>
      if st.want = .down then { st with lift := .lowering, liftTimer := some timeout }
      else { st with lift := .lifted, liftTimer := none }) b
  | .fault _, .up =>
    if b.field.module[k.val].online then
      evaluateWant x (modStation k (fun st => { st with lift := .lifted, liftTimer := none }) b) k
    else b
  | _, _ => b

/-- The lift timer expires (R104, R106). -/
def liftExpiry (x : Ctx) (k : Fin 16) (b : Blocks) : Blocks :=
  match (b.stationOf k).lift with
  | .lowering | .lifting =>
    let b' := (modStation k (enterFault .timeout) b).modStations fun s =>
      { s with liftTimeouts := inc16 s.liftTimeouts }
    evaluateWant x (raise .liftTimeout (screenSource k) b') k
  | .lifted | .engaged | .fault _ => modStation k (fun st => { st with liftTimer := none }) b

/-- The level at which a loss is raised (R107). -/
def lossLevel : LiftState → Level
  | .engaged | .lowering | .lifting => .trip
  | .lifted | .fault _ => .hold

/-- The module of a screen has become LOST (R107). -/
def stationLost (x : Ctx) (k : Fin 16) (b : Blocks) : Blocks :=
  let level := lossLevel (b.stationOf k).lift
  evaluateWant x (raiseAt .moduleLost (screenSource k) level (modStation k (enterFault .moduleLost) b)) k

/-! ### Station boundaries (R101, R116) -/

/-- The mark that W and E give (R116). -/
def markOf (wanted engaged : Nat) : MarkCode :=
  if wanted = 0 then .notUsed
  else if engaged = wanted then .printed
  else if engaged = 0 then .missed
  else .partly

/-- A segment's mark for screen k. A REGISTER flag stays. -/
def setMark (k : Fin 16) (code : MarkCode) (g : Segment) : Segment :=
  { g with marks := Bank.modify g.marks k fun m => { m with code := code } }

/-- What a station keeps of an override or paste hold at the boundary into a new holding (R90, R91). -/
def keepFor (new : Holding) (o : Option Nat) : Option Nat := o.filter fun q => decide (new = .segment q)

/-- The station takes its holding from the track; where it changes, this is a station boundary (R101). -/
def refreshStation (x : Ctx) (b : Blocks) (k : Fin 16) : Blocks :=
  let st := b.stationOf k
  let new := b.track.holdingAt (stationCoordinate x k)
  if st.holding = new then b
  else
    let b' := match st.holding with
      | .segment q => b.modTrack (modSeg q (setMark k (markOf st.wanted st.engaged)))
      | .gap | .before => b
    modStation k (fun s =>
      { s with
        override := keepFor new s.override
        pasteHold := keepFor new s.pasteHold
        wanted := 0
        engaged := 0
        holding := new }) b'

/-- A station boundary away from the station's own taking of an H advance: a new holding has the want evaluated (R101,
R103). -/
def stationBoundary (x : Ctx) (b : Blocks) (k : Fin 16) : Blocks :=
  let b' := refreshStation x b k
  if (b'.stationOf k).holding = (b.stationOf k).holding then b else evaluateWant x b' k

/-! ### Seam heads (R108) -/

/-- The segments a seam head at a coordinate concerns: a SEAM segment and the one before it, or the absorbing segment.
The empty list where no seam head is there. -/
def seamHeadAt (t : Track) (f : Nat) : List Nat :=
  match t.segs.find? fun g => decide (g.kind = .seam ∧ g.head = f) with
  | some g =>
    g.seq :: ((t.segs.filter fun p => match p.length with
      | some n => decide (p.head + n = g.head)
      | none => false).map (·.seq))
  | none =>
    match t.seams.find? fun e => decide (e.absorbedBy.isSome ∧ e.due = f) with
    | some e => e.absorbedBy.toList
    | none => []

/-- The seam-head test of an H advance (R108). -/
def seamHeadTest (x : Ctx) (b : Blocks) (k : Fin 16) : Blocks :=
  match stationCoordinate x k with
  | none => b
  | some f =>
    let segs := seamHeadAt b.track f
    if segs = [] ∨ (b.stationOf k).lift = .lifted then b
    else
      let b' := (b.modTrack fun t =>
          segs.foldl (fun t q => modSeg q (modFlags fun fl => { fl with seamUnlifted := true }) t) t).modStations
        fun s => { s with seamUnlifted := inc16 s.seamUnlifted }
      raise .seamUnlifted (screenSource k) b'

/-! ### Print accounting (R115) -/

/-- The station accounts for the unit at c. -/
def accountUnit (x : Ctx) (b : Blocks) (k : Fin 16) : Blocks :=
  if printsHere x b k then
    modStation k (fun st =>
      { st with
        wanted := st.wanted + 1
        engaged := if st.lift = .engaged then st.engaged + 1 else st.engaged }) b
  else b

/-! ### Phase, repeats and registration (R109 to R114) -/

/-- (P − offset + origin) mod repeat length, a remainder from 0 up (R109). -/
def phaseUnits (x : Ctx) (k : Fin 16) (m : MountRecord) : Nat :=
  (((x.motion.p : Int) - x.cfg.screenOffset[k] + m.origin) % (m.repeatLen : Int)).toNat

/-- A mount record with the repeat length and phase origin that the link cycle in progress goes by (R100). -/
def PhaseData.applied (d : PhaseData) (m : MountRecord) : MountRecord :=
  { m with repeatLen := d.repeatLen, origin := d.origin }

/-- The repeat length and phase origin of a mount record. -/
def MountRecord.phaseData (m : MountRecord) : PhaseData := ⟨m.repeatLen, m.origin⟩

/-- The phase reference in 0.01 mm with the active trim (R109), on the data of the link cycle in progress (R100). For a
screen that is not mounted the rule gives none: a free value (log 29). -/
def phaseReference (x : Ctx) (k : Fin 16) (d : PhaseData) (st : Station) : Nat :=
  let span : Int := 10 * d.repeatLen
  let v : Int := 10 * phaseUnits x k (d.applied st.mount) + st.trim.phase
  if st.mount.mounted then (if v < 0 then v + span else if span ≤ v then v - span else v).toNat
  else Config.unmountedPhase (screenSource k) x.motion.p

/-- The out-of-register count after the ending repeat: one with no reply taken leaves it as it was (R114). -/
def registerCount (st : Station) : Nat :=
  if st.seen then (if st.mount.tolerance < st.worst then satInc 15 st.outOfReg else 0) else st.outOfReg

/-- The REGISTER flag of a segment's mark for screen k. -/
def flagRegister (k : Fin 16) (g : Segment) : Segment :=
  { g with marks := Bank.modify g.marks k fun m => { m with register := true } }

/-- The ending repeat is judged: one that leaves the count at or above K raises REGISTER (R114). -/
def judgeRepeat (k : Fin 16) (b : Blocks) : Blocks :=
  let st := b.stationOf k
  let count := registerCount st
  let b' := modStation k (fun s => { s with outOfReg := count, worst := 0, seen := false }) b
  if st.mount.persistence ≤ count then
    raise .register (screenSource k)
      (match st.holding with
       | .segment q => b'.modTrack (modSeg q (flagRegister k))
       | .gap | .before => b')
  else b'

/-- The pending trim becomes active (R111). -/
def activateTrim (st : Station) : Station :=
  match st.pendingTrim with
  | some t => { st with trim := t, pendingTrim := none }
  | none => st

/-- A forward unit event that moved P: the repeat boundary of a mounted screen (R110). -/
def repeatBoundary (x : Ctx) (b : Blocks) (k : Fin 16) : Blocks :=
  let st := b.stationOf k
  if st.mount.mounted ∧ phaseUnits x k st.mount = 0 then modStation k activateTrim (judgeRepeat k b) else b

/-- One station at an H advance: its boundary, the seam-head test, the accounting, the want, the repeat (log 14).
A station above the screen count takes it too, at the offset its anchor word holds (log 13). -/
def stationAdvance (x : Ctx) (b : Blocks) (k : Fin 16) : Blocks :=
  repeatBoundary x (evaluateWant x (accountUnit x (seamHeadTest x (refreshStation x b k) k) k) k) k

/-- The phase error of a good reply taken while ENGAGED (R113). -/
def registration (k : Fin 16) (error : Int) (b : Blocks) : Blocks :=
  let st := b.stationOf k
  let e := min 255 error.natAbs
  if st.lift = .engaged then
    let b' := modStation k (fun s => { s with worst := max s.worst e, seen := true }) b
    match st.holding with
    | .segment q => b'.modTrack (modSeg q fun g => { g with worst := Bank.modify g.worst k fun w => max w e })
    | .gap | .before => b'
  else b

/-- A good reply from the module of a screen (R105, R113, R150). Registration is taken first (log 15). -/
def stationReply (x : Ctx) (k : Fin 16) (r : LiftPosition) (error : Int) (b : Blocks) : Blocks :=
  liftReport x k r (registration k error b)

/-! ### The items of a command frame (R105, R112) -/

/-- The lift command is DOWN. -/
def liftCommandDown : LiftState → Bool
  | .lowering | .engaged => true
  | .lifted | .lifting | .fault _ => false

/-- The paste rate sent (R112). -/
def pasteRate (b : Blocks) (k : Fin 16) : Nat :=
  let st := b.stationOf k
  if st.lift ≠ .engaged ∨ st.pasteHold.isSome then 0
  else
    match st.holding with
    | .segment q =>
      match (b.track.find q).bind (segSetting b.cache) with
      | some t => if t.engages k then (max 0 (min 1000 ((t.paste[k] : Int) + st.trim.paste))).toNat else 0
      | none => 0
    | .gap | .before => 0

/-! ### Mount image, trims and remounts (R98 to R100, R111) -/

/-- The mask of the byte lanes that byte enables set. -/
def laneMask (en : BitVec 4) : Word :=
  (if en.getLsbD 0 then 0x000000FF#32 else 0) ||| (if en.getLsbD 1 then 0x0000FF00#32 else 0) |||
  (if en.getLsbD 2 then 0x00FF0000#32 else 0) ||| (if en.getLsbD 3 then 0xFF000000#32 else 0)

/-- A word with the enabled bytes of another. -/
def mergeWord (old : Word) (w : WriteWord) : Word :=
  (w.value &&& laneMask w.enables) ||| (old &&& ~~~ laneMask w.enables)

/-- A host write word applied to the mount image (R98). -/
def applyImage (off : Nat) (w : WriteWord) (b : Blocks) : Blocks :=
  if h : off < 96 then
    b.modStations fun s => { s with image := s.image.set off (mergeWord s.image[off] w) }
  else b

/-- MOUNT_REFUSED with its detail and source, recorded as the last mount refusal (R99, R111). -/
def refuseMount (detail : MountDetail) (source : Nat) (b : Blocks) : Blocks :=
  raise .mountRefused source (b.modStations fun s => { s with lastRefusal := some (detail, source) })

/-- A trim word's fields (section 12.2): the trims and the apply-now flag. -/
def decodeTrim (w : Word) : Trim × Bool := (⟨sfld w 0 16, sfld w 16 11⟩, bit w 31)

def Trim.inRange (t : Trim) : Bool :=
  decide (-2000 ≤ t.phase ∧ t.phase ≤ 2000 ∧ -1000 ≤ t.paste ∧ t.paste ≤ 1000)

/-- A trim of screen k (R111). -/
def takeTrim (k : Fin 16) (w : Word) (b : Blocks) : Blocks :=
  let t := decodeTrim w
  if !(b.stationOf k).mount.mounted then
    refuseMount .trimUnmounted (screenSource k) (b.modStations fun s => { s with trimsRefused := inc16 s.trimsRefused })
  else if !t.1.inRange then
    refuseMount .trimRange (screenSource k) (b.modStations fun s => { s with trimsRefused := inc16 s.trimsRefused })
  else
    (modStation k (fun st =>
      if t.2 then { st with trim := t.1, pendingTrim := none } else { st with pendingTrim := some t.1 }) b).modStations
      fun s => { s with trimsTaken := inc16 s.trimsTaken }

/-- A screen's data differs between the image and the data in force (R99). -/
def mountChanged (new old : MountRecord) : Bool :=
  decide (new.mounted ≠ old.mounted) || (new.mounted && old.mounted && decide (new ≠ old))

/-- The record of screen k in the image. -/
def Stations.imageRecord (s : Stations) (k : Fin 16) : MountRecord := mountRecord s.image.toList k

/-- Check 5 of R99: the lowest changed screen that is not LIFTED. -/
def notLifted (s : Stations) : Option Nat :=
  (screens.find? fun k =>
    mountChanged (s.imageRecord k) s.station[k].mount && decide (s.station[k].lift ≠ .lifted)).map screenSource

/-- The first check of R99 that fails, with its source. -/
def remountFault (x : Ctx) (close : Word) (s : Stations) : Option (MountDetail × Nat) :=
  if !validClosing close then some (.badCheck, 0)
  else if x.motion.state ≠ .halted then some (.moving, 0)
  else
    match mountRangeFault x.cfg.screenCount s.image.toList with
    | some k => some (.range, k)
    | none =>
      match mountLeadFault x.cfg.screenOffset x.cfg.detectorDistance s.image.toList with
      | some k => some (.badLead, k)
      | none => (notLifted s).map fun k => (.notLifted, k)

/-- A station at an accepted remount (R100). -/
def remountStation (new : MountRecord) (st : Station) : Station :=
  let st' := { st with mount := new }
  if mountChanged new st.mount then
    let st' := { st' with outOfReg := 0, worst := 0, seen := false }
    if new.mounted ∧ ¬ st.mount.mounted then enterFault .start st'
    else if st.mount.mounted ∧ ¬ new.mounted then
      { st' with override := none, pasteHold := none, pendingTrim := none, trim := ⟨0, 0⟩ }
    else st'
  else st'

/-- The stations at an accepted remount: the image comes into force (R100). -/
def remountStations (generation : BitVec 16) (s : Stations) : Stations :=
  { s with
    station := Bank.tabulate fun k => remountStation (s.imageRecord k) s.station[k]
    liftTimeout := mountTimeout s.image.toList
    refScreen := mountRefScreen s.image.toList
    generation := generation
    remounts := inc16 s.remounts }

/-- The screens a remount leaves unmounted: mounted before, not in the image (R76, R100). -/
def unmounts (s : Stations) (k : Fin 16) : Bool := s.station[k].mount.mounted && !(s.imageRecord k).mounted

/-- An entry that becomes configured or unconfigured (R148). -/
def Module.reconfigured (m : Module) : Module :=
  { m with
    online := false, misses := 0, goods := 0, faultMarker := false, selector := false, item0 := none, item1 := none }

/-- The field line at a remount: the modules whose screens were mounted or unmounted (R144, R148). The phase data of a
screen so changed come into force with it (log 56); those of a screen mounted before and after wait for the next link
cycle (R100). -/
def remountModules (s : Stations) (f : FieldLine) : FieldLine :=
  { f with
    module := Bank.tabulate fun a =>
      if h : a.val < 16 then
        let k : Fin 16 := ⟨a.val, h⟩
        if (s.imageRecord k).mounted = s.station[k].mount.mounted then f.module[a] else f.module[a].reconfigured
      else f.module[a]
    phase := Bank.tabulate fun k =>
      if (s.imageRecord k).mounted = s.station[k].mount.mounted then f.phase[k] else (s.imageRecord k).phaseData }

end Sys2Proof.Machine
end

