-- ==== Sys2Proof/Machine/Cues.lean ====
section
/-! DEFINITION. The cue queue (05): scheduling, insertion, firing and cancellation. -/

namespace Sys2Proof.Machine

/-! ### Scheduling (R84, R85) -/

/-- Entry `n - 1` of a bank of numbers, 0 outside it. -/
def numbered {n : Nat} (v : Bank Nat n) (i : Nat) : Nat := if i = 0 then 0 else (v[i - 1]?).getD 0

/-- The target offset of a cue (R84). -/
def targetOffset (c : Anchor) (q : Cue) : Nat :=
  match q.action with
  | .lift | .lower | .pasteHold | .pasteResume => numbered c.screenOffset q.target
  | .zoneSet => numbered c.zoneEntry q.target
  | .mark => c.exitOffset

/-- The due position of a cue from its reference edge (R84). -/
def duePosition (c : Anchor) (edge : Nat) (q : Cue) : Nat :=
  position 0 ((edge : Int) + q.offset + targetOffset c q).toNat

/-- The place of a new cue: after every queued cue due at or below its own position (R85). -/
def insertDue (p : PendingCue) (l : List PendingCue) : List PendingCue :=
  l.takeWhile (fun e => e.due ≤ p.due) ++ [p] ++ l.dropWhile (fun e => e.due ≤ p.due)

/-! ### Screen cues (R90, R91) -/

/-- Screen n, or zone n, counted from 1. -/
def screenOf (n : Nat) : Option (Fin 16) := if h : 1 ≤ n ∧ n ≤ 16 then some ⟨n - 1, by omega⟩ else none
def zoneOf (n : Nat) : Option (Fin 8) := if h : 1 ≤ n ∧ n ≤ 8 then some ⟨n - 1, by omega⟩ else none

/-- The acceptance test (R90): the screen is mounted, and the cue's segment holds its fabric coordinate. -/
def acceptsCue (x : Ctx) (b : Blocks) (k : Fin 16) (q : Nat) : Bool :=
  (b.stationOf k).mount.mounted &&
    match stationCoordinate x k with
    | some f =>
      match b.track.segmentAt f with
      | some g => g.seq == q
      | none => false
    | none => false

/-- The effect of an accepted screen cue on its station (R90, R91). -/
def screenCue (action : CueAction) (q : Nat) (st : Station) : Station :=
  match action with
  | .lift => { st with override := some q }
  | .lower => { st with override := none }
  | .pasteHold => { st with pasteHold := some q }
  | .pasteResume => { st with pasteHold := none }
  | .zoneSet | .mark => st

/-- An accepted screen cue at its station: an override that it sets or clears has the want evaluated, and a cue that
leaves the override as it was leaves the want too (R90, R91, R103). -/
def takeScreenCue (x : Ctx) (b : Blocks) (k : Fin 16) (action : CueAction) (q : Nat) : Blocks :=
  let b' := modStation k (screenCue action q) b
  if (b'.stationOf k).override = (b.stationOf k).override then b' else evaluateWant x b' k

/-- A screen cue handed to its station: taken, or discarded as CUE_STRAY (R90). -/
def fireScreenCue (x : Ctx) (b : Blocks) (k : Fin 16) (action : CueAction) (q : Nat) : Blocks :=
  if acceptsCue x b k q then takeScreenCue x b k action q
  else b.modCues fun s => { s with stray := inc16 s.stray }

/-! ### MARK (R93) -/

/-- The record of a MARK cue: an entry of the mark list, or one more in the count of further marks. -/
def recordMark (rel : Int) (code : Nat) (g : Segment) : Segment :=
  if g.markList.length < 4 then { g with markList := g.markList ++ [⟨rel, code⟩] }
  else { g with furtherMarks := inc8 g.furtherMarks }

/-- A MARK cue: the line, and the record. -/
def fireMark (x : Ctx) (b : Blocks) (q code : Nat) : Blocks :=
  (b.modCues fun s => { s with markPulse := true }).modTrack
    (modSeg q fun g => recordMark ((x.motion.h : Int) - x.cfg.exitOffset - g.head) code g)

/-! ### Firing (R86, R87) -/

/-- A fired cue is handed to its target. -/
def actCue (x : Ctx) (b : Blocks) (p : PendingCue) : Blocks :=
  match p.cue.action with
  | .lift | .lower | .pasteHold | .pasteResume =>
    match screenOf p.cue.target with
    | some k => fireScreenCue x b k p.cue.action p.seq
    | none => b.modCues fun s => { s with stray := inc16 s.stray }
  | .zoneSet =>
    match zoneOf p.cue.target with
    | some z => zoneSet z p.cue.value b
    | none => b
  | .mark => fireMark x b p.seq p.cue.value

/-- The retirement test (R87): the segment is IN TRANSIT and the cue is due at or beyond its retirement position. -/
def pastRetirement (x : Ctx) (t : Track) (p : PendingCue) : Bool :=
  match t.find p.seq with
  | some g =>
    match g.length with
    | some n => decide (g.head + n + x.cfg.exitOffset ≤ p.due)
    | none => false
  | none => false

/-- The LATE marker of a cue that fires (R86). -/
def flagLate (p : PendingCue) (b : Blocks) : Blocks :=
  if p.late then
    (b.modTrack (modSeg p.seq (modFlags fun f => { f with late := true }))).modCues fun s => { s with late := inc16 s.late }
  else b

/-- A cue that has left the queue: cancelled by the retirement test, or fired (R87). -/
def fireCue (x : Ctx) (b : Blocks) (p : PendingCue) : Blocks :=
  if pastRetirement x b.track p then b.modCues fun s => { s with cancelled := inc16 s.cancelled }
  else actCue x (flagLate p (b.modCues fun s => { s with fired := inc32 s.fired })) p

/-- The cues at the head of the queue due at or below H leave it and fire, in queue order (R86, R87). -/
def fireDue (x : Ctx) (b : Blocks) : Blocks :=
  let due := b.cues.queue.takeWhile fun p => p.due ≤ x.motion.h
  due.foldl (fireCue x)
    (b.modCues fun s => { s with queue := s.queue.dropWhile fun p => p.due ≤ x.motion.h })

/-! ### Insertion (R82, R85, R86, R94) -/

/-- One cue of a batch is inserted, late when its due position is below `lateBelow`; or it is dropped (R85, R86). -/
def insertCue (x : Ctx) (lateBelow edge q : Nat) (b : Blocks) (c : Cue) : Blocks :=
  let due := duePosition x.cfg edge c
  let number := b.cues.insertions + 1
  let b := b.modCues fun s => { s with insertions := number }
  if b.cues.queue.length < Config.cuePlaces then
    fireDue x (b.modCues fun s =>
      { s with queue := insertDue ⟨due, c, q, decide (due < lateBelow), number⟩ s.queue })
  else
    ((raise .cueOverflow 0 b).modTrack (modSeg q (modFlags fun f => { f with cuesLost := true }))).modCues fun s =>
      { s with dropped := inc16 s.dropped }

/-- The bound below which a batch's cue is late: H while the track takes the H advance, H + 1 at any other event
(R86). -/
def lateBound (x : Ctx) (advance : Bool) : Nat := if advance then x.motion.h else x.motion.h + 1

/-- A batch is inserted cue by cue (R85). -/
def insertBatch (x : Ctx) (advance : Bool) (edge q : Nat) (cs : List Cue) (b : Blocks) : Blocks :=
  cs.foldl (insertCue x (lateBound x advance) edge q) b

/-- The HEAD cues, and the TAIL cues, of a setting in list order (R83). -/
def headCues (t : Option Setting) : List Cue := (t.map fun t => t.cues.filter fun c => !c.tail).getD []
def tailCues (t : Option Setting) : List Cue := (t.map fun t => t.cues.filter fun c => c.tail).getD []

/-- The HEAD batch at the admission of a PRINT ORDER segment (R83). -/
def headBatch (x : Ctx) (advance : Bool) (g : Segment) (b : Blocks) : Blocks :=
  if g.origin = .order then insertBatch x advance g.head g.seq (headCues (segSetting b.cache g)) b else b

/-- The TAIL batch at the closure of a PRINT segment (R83). -/
def tailBatch (x : Ctx) (advance : Bool) (g : Segment) (n : Nat) (b : Blocks) : Blocks :=
  insertBatch x advance (g.head + n) g.seq (tailCues (segSetting b.cache g)) b

/-- A cue of a rebuild batch: discarded when due at or below the corrected H, otherwise inserted (R94). A discarded cue
is an insertion attempt (log 24). -/
def rebuildCue (x : Ctx) (edge q : Nat) (b : Blocks) (c : Cue) : Blocks :=
  if duePosition x.cfg edge c ≤ b.restart.correctedH then
    b.modCues fun s => { s with insertions := s.insertions + 1, warmDiscarded := inc16 s.warmDiscarded }
  else insertCue x (lateBound x false) edge q b c

/-- The edge from which a rebuild batch places a cue, none for a cue it leaves out (R94): the tail of a closed segment
for a TAIL cue; for a HEAD cue the head, unless the segment is a CONTINUATION or a seam truncated it at or below the
cue. -/
def rebuildEdge (g : Segment) (c : Cue) : Option Nat :=
  if c.tail then g.length.map (g.head + ·)
  else if g.origin ≠ .order then none
  else
    match g.length with
    | some n => if (g.flags.split || g.truncated) ∧ (n : Int) ≤ c.offset then none else some g.head
    | none => some g.head

/-- One cue of a setting in the rebuild batch of a segment. -/
def rebuildListed (x : Ctx) (g : Segment) (b : Blocks) (c : Cue) : Blocks :=
  match rebuildEdge g c with
  | some edge => rebuildCue x edge g.seq b c
  | none => b

/-- The rebuild batch of a restored PRINT segment, in list order (R85, R94). -/
def rebuildBatch (x : Ctx) (b : Blocks) (g : Segment) : Blocks :=
  ((segSetting b.cache g).map (·.cues)).getD [] |>.foldl (rebuildListed x g) b

/-! ### Cancellation (R88, R89) -/

/-- The pending cues that a test names leave the queue as cancelled. -/
def cancelCues (test : PendingCue → Bool) (b : Blocks) : Blocks :=
  b.modCues fun s =>
    { s with
      queue := s.queue.filter fun p => !test p
      cancelled := satAdd 65535 s.cancelled (s.queue.filter test).length }

/-- A seam truncates a PRINT segment to length n (R88). -/
def cancelTruncated (q n : Nat) (b : Blocks) : Blocks :=
  cancelCues (fun p => decide (p.seq = q ∧ ¬ p.cue.tail ∧ (n : Int) ≤ p.cue.offset)) b

/-- A segment retires (R89). -/
def cancelRetired (q : Nat) (b : Blocks) : Blocks := cancelCues (fun p => decide (p.seq = q)) b

end Sys2Proof.Machine
end

