-- ==== Sys2Proof/Machine/Cache.lean ====
section
/-! DEFINITION. The setting cache (04): lookup, choice of an entry, references, superseding and fetch restarts. -/

namespace Sys2Proof.Machine

/-- The cache entries' numbers. -/
def cacheEntries : List (Fin 8) := List.finRange 8

/-- A change of one entry. -/
def Cache.modEntry (e : Fin 8) (f : CacheEntry → CacheEntry) (c : Cache) : Cache :=
  { c with entries := Bank.modify c.entries e f }

/-- The current entry of a number: the one FETCHING or READY (R68). -/
def Cache.current (c : Cache) (n : Nat) : Option (Fin 8) :=
  cacheEntries.find? fun e =>
    decide (c.entries[e].number = n ∧ (c.entries[e].state = .fetching ∨ c.entries[e].state = .ready))

/-- The entry a miss takes (R70): the lowest FREE one, else the READY one with count 0 first in the use order. -/
def Cache.choose (c : Cache) : Option (Fin 8) :=
  (cacheEntries.find? fun e => decide (c.entries[e].state = .free)).or
    (c.useOrder.find? fun e => decide (c.entries[e].state = .ready ∧ c.entries[e].count = 0))

/-- An entry moves to the end of the use order (R70). -/
def Cache.touch (e : Fin 8) (c : Cache) : Cache := { c with useOrder := c.useOrder.filter (fun i => i ≠ e) ++ [e] }

/-- An entry becomes FREE with a count of 0. Its version stays, to be raised by the next fetch (R68). -/
def CacheEntry.freed (e : CacheEntry) : CacheEntry :=
  { e with state := .free, count := 0, restarts := 0, contents := none }

/-- An entry chosen for a miss: FETCHING, with the number, the next version and a count (R69). -/
def CacheEntry.begun (n count : Nat) (e : CacheEntry) : CacheEntry :=
  ⟨.fetching, n, (e.version + 1) % 65536, count, 0, none⟩

/-- A fetch begins into an entry (R69, R73). -/
def Cache.beginFetch (e : Fin 8) (n count : Nat) (c : Cache) : Cache :=
  let c := (c.modEntry e (CacheEntry.begun n count)).touch e
  { c with fetchQueue := c.fetchQueue ++ [e], fetches := inc16 c.fetches }

/-- The answers of a lookup (R71). -/
inductive Answer
  | ready (e : Fin 8) (version : Nat)
  | fetching (e : Fin 8) (version : Nat)
  | waitingEntry
  deriving DecidableEq, Repr

/-- A lookup (R71). -/
def Cache.lookup (n : Nat) (c : Cache) : Cache × Answer :=
  match c.current n with
  | some e =>
    let c' := (c.modEntry e fun r => { r with count := r.count + 1 }).touch e
    (c', if c.entries[e].state = .ready then .ready e c.entries[e].version else .fetching e c.entries[e].version)
  | none =>
    match c.choose with
    | some e =>
      let c' := c.beginFetch e n 1
      (c', .fetching e c'.entries[e].version)
    | none => (c, .waitingEntry)

/-- The staged order after an answer (R59). -/
def StagedOrder.answered (a : Answer) (o : StagedOrder) : StagedOrder :=
  match a with
  | .ready e v => { o with state := .ready, ref := some (e, v) }
  | .fetching e v => { o with state := .fetching, ref := some (e, v) }
  | .waitingEntry => { o with state := .waitingEntry, ref := none }

/-- The plan reader is told the setting state (R59, R72). -/
def tellStaged (a : Answer) (b : Blocks) : Blocks :=
  b.modPlan fun p => { p with staged := p.staged.map (StagedOrder.answered a) }

/-- The lookup of the staged order at staging: with no entry it waits, and CACHE_FULL is raised (R71). -/
def lookupStaged (n : Nat) (b : Blocks) : Blocks :=
  match b.cache.lookup n with
  | (c, .waitingEntry) => raise .cacheFull 0 (tellStaged .waitingEntry (b.setCache { c with waiting := some n }))
  | (c, a) => tellStaged a (b.setCache c)

/-- The waiting lookup is retried (R72). -/
def retryLookup (b : Blocks) : Blocks :=
  match b.cache.waiting with
  | none => b
  | some n =>
    match b.cache.lookup n with
    | (_, .waitingEntry) => b
    | (c, a) => tellStaged a (b.setCache { c with waiting := none })

/-! ### References (R77, R196) -/

/-- The entry a reference counts on: its own, or that of its restore claim; none where the claim failed. -/
def SettingRef.counted (r : SettingRef) : Option (Fin 8) :=
  match r.link with
  | .held => some r.entry
  | .restoring e => some e
  | .lost => none

/-- One more reference on an entry. -/
def claimRef (r : SettingRef) (b : Blocks) : Blocks :=
  match r.counted with
  | some e => b.modCache (Cache.modEntry e fun c => { c with count := c.count + 1 })
  | none => b

/-- An entry after one reference of it is released (R69). -/
def CacheEntry.released (e : CacheEntry) : CacheEntry :=
  let e' := { e with count := e.count - 1 }
  if e'.count = 0 ∧ e.state = .superseded then e'.freed else e'

/-- A reference on an entry is released: at count 0 the entry moves in the use order and a waiting lookup is retried
(R77). -/
def releaseEntry (e : Fin 8) (b : Blocks) : Blocks :=
  if b.cache.entries[e].count = 0 then b
  else
    let b' := b.modCache (Cache.modEntry e CacheEntry.released)
    if b.cache.entries[e].count = 1 then retryLookup (b'.modCache (Cache.touch e)) else b'

/-- The release of a setting reference; one whose restore claim failed releases nothing (R196). -/
def releaseRef (r : Option SettingRef) (b : Blocks) : Blocks :=
  match r.bind SettingRef.counted with
  | some e => releaseEntry e b
  | none => b

/-! ### Superseding (R75, R76) -/

/-- A READY entry is superseded: SUPERSEDED with references, FREE without. -/
def CacheEntry.superseded (e : CacheEntry) : CacheEntry :=
  if e.count = 0 then e.freed else { e with state := .superseded }

/-- A READY entry is superseded and counted (R75; log 36 for an entry with count 0). -/
def supersede (e : Fin 8) (b : Blocks) : Blocks :=
  b.modCache fun c =>
    { c.modEntry e CacheEntry.superseded with supersedes := inc16 c.supersedes }

/-- A decoded setting engages a screen that a remount leaves unmounted. -/
def engagesUnmounted (gone : Fin 16 → Bool) (t : Option Setting) : Bool :=
  match t with
  | some t => screens.any fun k => gone k && t.engages k
  | none => false

/-- Every READY entry whose mask names a screen left unmounted is superseded (R76). -/
def supersedeUnmounted (gone : Fin 16 → Bool) (b : Blocks) : Blocks :=
  (cacheEntries.filter fun e =>
    decide (b.cache.entries[e].state = .ready) && engagesUnmounted gone b.cache.entries[e].contents).foldl
    (fun b e => supersede e b) b

/-! ### Fetches in progress (R73, R74) -/

/-- The fetch of an entry leaves the order of fetches; the words of the first fetch go with it. -/
def Cache.endFetch (e : Fin 8) (c : Cache) : Cache :=
  { c with
    fetchQueue := c.fetchQueue.filter fun i => i ≠ e
    words := if c.fetchQueue.head? = some e then [] else c.words }

/-- The cache withdraws its burst request when the first fetch is the one named (R74, R184). -/
def withdrawFetch (e : Fin 8) (b : Blocks) : Blocks :=
  if b.cache.fetchQueue.head? = some e then b.modPath fun p => p.withdraw .cache else b

/-- A fetch is restarted: its words are discarded and its place kept (R74). -/
def restartFetch (e : Fin 8) (b : Blocks) : Blocks :=
  (withdrawFetch e b).modCache fun c =>
    let c' := c.modEntry e fun r => { r with restarts := r.restarts + 1 }
    { c' with
      words := if c.fetchQueue.head? = some e then [] else c.words
      restarts := inc16 c.restarts }

end Sys2Proof.Machine
end

