-- ==== Sys2Proof/Machine/Track.lean ====
section
/-! DEFINITION. The track unit (02): capacity, closure and admission, boundaries, seams, retirement, and the track at an
H advance. -/

namespace Sys2Proof.Machine

/-! ### Capacity and alignment (R21, R22, R41) -/

/-- The free entries (R21, R22). -/
def Track.free (t : Track) : Nat := if t.seqCounter = 4294967295 then 0 else Config.trackEntries - t.segs.length

/-- The free entries that a successor of a segment needs (R22, R25). -/
def entriesNeeded (g : Segment) : Nat := if g.kind = .seam then 1 else 9

/-- The mount data of the reference screen, where it is mounted (R41). -/
def alignMount (s : Stations) : Option MountRecord :=
  match screenOf s.refScreen with
  | some k => if s.station[k].mount.mounted then some s.station[k].mount else none
  | none => none

/-- The aligned position at or beyond a position (R41). -/
def alignTo (s : Stations) (q : Nat) : Nat :=
  match alignMount s with
  | some m => position q (q + (m.repeatLen - (q + m.origin) % m.repeatLen) % m.repeatLen)
  | none => q

/-- A position, aligned for an order with ALIGN. -/
def alignFor (s : Stations) (o : StagedOrder) (q : Nat) : Nat := if o.align then alignTo s q else q

/-! ### New segments (R19, R20, R28) -/

/-- A segment at admission, before its number is given. -/
def Segment.blank (head : Nat) : Segment where
  seq := 0
  kind := .blank
  origin := .starved
  orderId := none
  tag := none
  setting := none
  head := head
  length := none
  plannedEnd := none
  contOwed := none
  flags := {}
  marks := .replicate 16 ⟨.notReached, false⟩
  worst := .replicate 16 0
  probes := []
  markList := []
  furtherMarks := 0
  verdict := .notApplicable
  truncated := false
  gainedUnder := false
  gainedOver := false

/-- The planned end of an order admitted at a head (R24). -/
def plannedEndOf (s : Stations) (o : StagedOrder) (head : Nat) : Option Nat :=
  if o.kind.usesLength then some (alignFor s o (position head (head + o.length))) else none

/-- The segment of a staged order (R19, R20). -/
def orderSegment (s : Stations) (o : StagedOrder) (head : Nat) : Segment :=
  { Segment.blank head with
    kind := if o.kind.usesSetting then .print else .blank
    origin := .order
    orderId := some o.orderId
    tag := some o.tag
    setting := if o.kind.usesSetting then o.ref.map fun r => ⟨o.settingNumber, r.1, r.2, .held⟩ else none
    plannedEnd := plannedEndOf s o head
    flags := { holdAtEnd := o.holdAtEnd }
    verdict := if o.kind.usesSetting then .pending else .notApplicable }

/-- The segment of a continuation owed (R20, R36). -/
def continuationSegment (c : ContOwed) (head : Nat) : Segment :=
  { Segment.blank head with
    kind := .print
    origin := .continuation
    orderId := some c.orderId
    tag := some c.tag
    setting := c.setting
    plannedEnd := some c.plannedEnd
    flags := { holdAtEnd := c.holdAtEnd }
    verdict := .pending }

/-- The segment of a seam (R34). -/
def seamSegment (seamLength head : Nat) : Segment :=
  { Segment.blank head with
    kind := .seam
    origin := .seam
    plannedEnd := some (position head (head + seamLength)) }

/-! ### Closure and admission (R27, R28) -/

/-- The position at which a segment closes for a boundary position: beyond its head, for its length is at least 1
(R18, R27). Only a boundary position at or below the head is moved, to the first position past it (log 46). -/
def closingAt (g : Segment) (p : Nat) : Nat := max p (g.head + 1)

/-- A position H lies beyond the ENTERING segment's head and beyond the fabric that a warm arming's snapshot recorded as
passed, which is not entered again: a boundary placed at H itself can be taken (R18, R195, log 46). -/
def pastRecorded (h : Nat) (t : Track) (g : Segment) : Bool := decide (g.head < h ∧ t.passed ≤ h)

/-- The ENTERING segment closed at a position: its length fixed. -/
def closeSeg (p : Nat) (g : Segment) : Segment := { g with length := some (p - g.head) }

/-- A segment joins the track as ENTERING with the next number; LATE if its head lies below H (R21, R28). -/
def joinTrack (h : Nat) (g : Segment) (t : Track) : Track :=
  let s := { g with
    seq := t.seqCounter + 1
    flags := { g.flags with late := g.flags.late || decide (g.head < h) } }
  { t with segs := t.segs ++ [s], seqCounter := t.seqCounter + 1, boundary := .opened g.plannedEnd }

/-- The closure of a segment handed on: its TAIL batch and its probes (R27). -/
def handClosure (x : Ctx) (advance : Bool) (q : Nat) (b : Blocks) : Blocks :=
  match b.track.find q with
  | none => b
  | some g =>
    match g.length with
    | none => b
    | some n => if g.kind = .print then ovenClosed x q n (tailBatch x advance g n b) else b

/-- The admission of the newest segment handed on: its HEAD batch and its first probe (R28). -/
def handAdmission (x : Ctx) (advance : Bool) (b : Blocks) : Blocks :=
  match b.track.entering with
  | none => b
  | some g => if g.kind = .print then ovenAdmitted x g (headBatch x advance g b) else b

/-- The fabric coordinate at an offset lies at or beyond a position. -/
def reachedBy (x : Ctx) (p offset : Nat) : Bool :=
  match coordinate x.motion.h offset with
  | some f => decide (p ≤ f)
  | none => false

/-- The stations whose coordinate lies at or beyond the position of a change of the track (R101). -/
def stationsBehind (x : Ctx) (p : Nat) : List (Fin 16) := screens.filter fun k => reachedBy x p x.cfg.screenOffset[k]

/-- The zones whose coordinate lies at or beyond the position of a change of the track (R121), and those that have taken
no boundary since the arming (R140, log 47). -/
def zonesBehind (x : Ctx) (p : Nat) (o : Oven) : List (Fin 8) :=
  (listedZones x.cfg).filter fun z => reachedBy x p x.cfg.zoneEntry[z] || o.zone[z].recorded.isNone

/-- A change of the track at a position, an admission there or a WAITING boundary: the stations and zones at or beyond
it take their boundaries (R101, R103, R121). -/
def refreshBehind (x : Ctx) (p : Nat) (b : Blocks) : Blocks :=
  (zonesBehind x p b.oven).foldl (refreshZone x) ((stationsBehind x p).foldl (stationBoundary x) b)

/-- The screens whose coordinate a seam span covers under one track and not under the other. -/
def spansMoved (x : Ctx) (s : Stations) (old new : Track) : List (Fin 16) :=
  screens.filter fun k => match stationCoordinate x k with
    | some f =>
      let covers (t : Track) := inSpan s.station[k].mount (seamRanges x.cfg.seamLength t) f
      covers old != covers new
    | none => false

/-- The screens that a change of the SEAM segments has uncovered, or covered, evaluate their wants (R102, R103). -/
def evaluateMoved (x : Ctx) (old : Track) (b : Blocks) : Blocks :=
  (spansMoved x b.stations old b.track).foldl (evaluateWant x) b

/-- The ENTERING segment closes at a position and its successor is admitted there, both at once; then both are handed
on, the closure first; the stations and zones take the boundary after the cues that the hand-over fires (R123, log 48).
A SEAM segment that closes elsewhere than at its due end has another span from then on (R102). The two are one snapshot
trigger (log 40). -/
def succeed (x : Ctx) (advance : Bool) (g : Segment) (s : Segment) (b : Blocks) : Blocks :=
  let old := b.track
  let b := b.modTrack fun t => joinTrack x.motion.h s (modSeg g.seq (closeSeg s.head) t)
  trigger x (evaluateMoved x old (refreshBehind x s.head (handAdmission x advance (handClosure x advance g.seq b))))

/-! ### Successors at a boundary (R25, R36, R39) -/

/-- The staged order is ready for admission (R59). -/
def StagedOrder.isReady (o : StagedOrder) : Bool :=
  match o.state with
  | .none | .ready => true
  | .fetching | .waitingEntry => false

/-- The cause of a STARVED BLANK admitted behind a segment (R39). -/
def starvedCause (closing : Segment) (b : Blocks) : Blocks :=
  if closing.flags.holdAtEnd || b.track.starvedHold then
    raise .starvedHold 0 (b.modTrack fun t => { t with starvedHold := true })
  else raise .starved 0 b

/-- A STARVED BLANK is admitted at a position. -/
def admitStarved (x : Ctx) (advance : Bool) (g : Segment) (p : Nat) (b : Blocks) : Blocks :=
  starvedCause g (succeed x advance g (Segment.blank p) b)

/-- The plan reader releases its staged order (R60). -/
def releaseStaged (p : Plan) : Plan := { p with staged := none, take := .idle }

/-- The staged order is admitted at a position: the starved-hold marker ends, and the plan reader releases it. -/
def admitStaged (x : Ctx) (advance : Bool) (g : Segment) (o : StagedOrder) (p : Nat) (b : Blocks) : Blocks :=
  let s := orderSegment b.stations o p
  succeed x advance g s ((b.modTrack fun t => { t with starvedHold := false }).modPlan releaseStaged)

/-- The continuation owed by a SEAM segment is admitted at its end; the reference passes (R28). -/
def admitContinuation (x : Ctx) (advance : Bool) (g : Segment) (c : ContOwed) (p : Nat) (b : Blocks) : Blocks :=
  succeed x advance g (continuationSegment c p) (b.modTrack (modSeg g.seq fun g => { g with contOwed := none }))

/-- The boundary becomes DEFERRED: the segment gets EXTENDED (R29, R30). -/
def deferTo (forCache : Bool) (q : Nat) (b : Blocks) : Blocks :=
  b.modTrack fun t =>
    { modSeg q (modFlags fun f => { f with extended := true }) t with boundary := .deferred forCache }

/-- DEFERRED for the track: TRACK_FULL is raised as the boundary comes into this state (R29, log 16). -/
def deferTrack (q : Nat) (b : Blocks) : Blocks :=
  let b' := deferTo false q b
  if b.track.boundary = .deferred false then b' else raise .trackFull 0 b'

/-- The boundary is taken at a position (R25). -/
def takeBoundary (x : Ctx) (p : Nat) (b : Blocks) : Blocks :=
  match b.track.entering with
  | none => b
  | some g =>
    if b.track.free < entriesNeeded g then deferTrack g.seq b
    else
      match g.contOwed, b.plan.staged with
      | some c, _ => admitContinuation x true g c p b
      | none, none => admitStarved x true g p b
      | none, some o =>
        match o.state with
        | .none | .ready => admitStaged x true g o p b
        | .fetching => refreshBehind x p (b.modTrack fun t => { t with boundary := .waiting p })
        | .waitingEntry => deferTo true g.seq b

/-! ### Seams (R34 to R38) -/

/-- A continuation owed is dropped: its reference is released, and its HOLD_AT_END passes to a segment (R36). -/
def dropOwed (q : Nat) (c : ContOwed) (b : Blocks) : Blocks :=
  (releaseRef c.setting b).modTrack (modSeg q fun g =>
    { g with contOwed := none, flags := { g.flags with holdAtEnd := g.flags.holdAtEnd || c.holdAtEnd } })

/-- A continuation owed after its remaining length has fallen: kept by a segment, or dropped by it (R35, R37). -/
def shortenOwed (minOrder q : Nat) (c : ContOwed) (by' : Int) (b : Blocks) : Blocks :=
  let rem := (c.remaining : Int) - by'
  if rem < minOrder then dropOwed q c b
  else b.modTrack (modSeg q fun g => { g with contOwed := some { c with remaining := rem.toNat } })

/-- A pending seam leaves the list. -/
def dropSeam (e : PendingSeam) (t : Track) : Track := { t with seams := t.seams.filter fun s => s ≠ e }

/-- The continuation that a truncated segment leaves at a seam, with its remaining length at least the minimum (R36). It
takes no reference from a segment whose restore claim failed (R196). -/
def owedBy (c : Anchor) (g : Segment) (d : Nat) : Option ContOwed :=
  match g.kind, g.plannedEnd with
  | .print, some e =>
    let rem := (e : Int) - d - c.seamLength
    if (c.minOrder : Int) ≤ rem then
      some ⟨g.orderId.getD 0, g.tag.getD 0, presentRef g.setting, e, rem.toNat, g.flags.holdAtEnd⟩
    else none
  | _, _ => none

/-- The SEAM segment that truncates a segment: it carries the continuation owed, or HOLD_AT_END passes to it (R36). -/
def truncatingSeam (c : Anchor) (g : Segment) (d : Nat) : Segment :=
  let s := seamSegment c.seamLength d
  match owedBy c g d with
  | some o => { s with contOwed := some o }
  | none => { s with flags := { s.flags with holdAtEnd := g.flags.holdAtEnd } }

/-- The reference claim of a continuation owed (R36, R77). -/
def claimOwed (o : Option ContOwed) (b : Blocks) : Blocks :=
  match o.bind (·.setting) with
  | some r => claimRef r b
  | none => b

/-- A seam truncates the ENTERING segment at its due position (R34). -/
def truncateAt (x : Ctx) (g : Segment) (e : PendingSeam) (b : Blocks) : Blocks :=
  let d := e.due
  let split := match g.plannedEnd with
    | some p => decide (d < p)
    | none => false
  let b := b.modTrack fun t =>
    dropSeam e (modSeg g.seq
      (fun g => { g with flags := { g.flags with split := g.flags.split || split }, truncated := true }) t)
  let b := if g.kind = .print then cancelTruncated g.seq (d - g.head) b else b
  succeed x true g (truncatingSeam x.cfg g d) (claimOwed (owedBy x.cfg g d) b)

/-- A seam falls at the boundary: the segment closes without SPLIT and a SEAM segment follows (R37). -/
def seamAtBoundary (x : Ctx) (g : Segment) (e : PendingSeam) (b : Blocks) : Blocks :=
  let s := seamSegment x.cfg.seamLength e.due
  let b := b.modTrack (dropSeam e)
  if g.kind = .seam then
    let b' := succeed x true g s (b.modTrack (modSeg g.seq fun g => { g with contOwed := none }))
    match g.contOwed, b'.track.entering with
    | some c, some s' => shortenOwed x.cfg.minOrder s'.seq c x.cfg.seamLength b'
    | _, _ => b'
  else succeed x true g { s with flags := { s.flags with holdAtEnd := g.flags.holdAtEnd } } b

/-- The due end of an ENTERING SEAM segment that covers a seam: d + seam length (R35). A seam at or below the segment's
head does not shorten it (log 46). -/
def coveredEnd (c : Anchor) (g : Segment) (d : Nat) : Nat :=
  let tail := position d (d + c.seamLength)
  if g.head < d then tail else max tail (g.plannedEnd.getD tail)

/-- A seam inside an ENTERING SEAM segment extends it (R35). -/
def coverSeam (x : Ctx) (g : Segment) (e : PendingSeam) (b : Blocks) : Blocks :=
  let oldEnd := g.plannedEnd.getD e.due
  let newEnd := coveredEnd x.cfg g e.due
  let b := b.modTrack fun t =>
    { dropSeam e (modSeg g.seq (fun g => { g with plannedEnd := some newEnd }) t) with boundary := .opened (some newEnd) }
  let b := match g.contOwed with
    | some c => shortenOwed x.cfg.minOrder g.seq c ((newEnd : Int) - oldEnd) b
    | none => b
  b

/-- A due end that an absorbed seam moves to its tail (R38). -/
def absorbedEnd (tail : Nat) : Boundary → Boundary
  | .opened (some p) => .opened (some (max p tail))
  | bd => bd

/-- A seam with no free entry is absorbed into the ENTERING segment (R38). -/
def absorbSeam (x : Ctx) (g : Segment) (e : PendingSeam) (b : Blocks) : Blocks :=
  let tail := position e.due (e.due + x.cfg.seamLength)
  let b := b.modTrack fun t =>
    { modSeg g.seq (modFlags fun f => { f with seamUnlifted := true, extended := true }) t with
      seams := t.seams.map fun s => if s = e then { s with absorbedBy := some g.seq } else s
      boundary := absorbedEnd tail t.boundary
      absorbedSeams := inc16 t.absorbedSeams }
  raise .seamUnlifted 0 b

/-- The seam falls at the end of the ENTERING segment: at an OPEN due end, or past the end of a DEFERRED SEAM segment
(R37, log 17). -/
def atBoundary (bd : Boundary) (g : Segment) (d : Nat) : Bool :=
  match bd with
  | .opened (some p) => decide (d = p)
  | .deferred _ => decide (g.kind = .seam)
  | .opened none | .waiting _ => false

/-- A SEAM segment can be admitted at a position: an entry is free (R22), and the position lies beyond the ENTERING
segment's head (R34, log 46). -/
def seamFits (t : Track) (g : Segment) (d : Nat) : Bool := decide (0 < t.free ∧ g.head < d)

/-- A seam comes due over an ENTERING segment whose boundary does not wait (R34, R35, R37, R38). -/
def meetSeam (x : Ctx) (g : Segment) (e : PendingSeam) (b : Blocks) : Blocks :=
  if atBoundary b.track.boundary g e.due ∧ seamFits b.track g e.due then seamAtBoundary x g e b
  else if g.kind = .seam then coverSeam x g e b
  else if seamFits b.track g e.due then truncateAt x g e b
  else absorbSeam x g e b

/-- A seam comes due, and every station evaluates its want (R103); one that has not yet taken this H advance does so at
the new coordinate with the holding it had (log 50). A WAITING boundary is first resolved by a STARVED BLANK at its
position (R31). -/
def takeSeam (x : Ctx) (e : PendingSeam) (b : Blocks) : Blocks :=
  let b := match b.track.boundary, b.track.entering with
    | .waiting p, some g => admitStarved x false g (closingAt g p) b
    | _, _ => b
  match b.track.entering with
  | some g => evaluateWants x (meetSeam x g e b)
  | none => b

/-! ### Retirement (R42, R43) -/

/-- The segment is IN TRANSIT and its tail has passed the exit offset. -/
def retires (x : Ctx) (g : Segment) : Bool :=
  match g.length with
  | some n => decide (g.head + n + x.cfg.exitOffset ≤ x.motion.h)
  | none => false

/-- The wants that a retirement has evaluated: every station's where an ABSORBED entry has left the list; else those of
the screens that the span of a retired SEAM segment still covered (R102, R103, log 50). -/
def evaluateRetired (x : Ctx) (old : Track) (b : Blocks) : Blocks :=
  if b.track.seams = old.seams then evaluateMoved x old b else evaluateWants x b

/-- A segment retires, and is handed on in four directions. Its ABSORBED seams leave with it. -/
def retire (x : Ctx) (b : Blocks) (g : Segment) : Blocks :=
  let old := b.track
  let b := b.modTrack fun t =>
    { t with
      segs := t.segs.filter fun s => s.seq ≠ g.seq
      seams := t.seams.filter fun e => e.absorbedBy ≠ some g.seq }
  evaluateRetired x old (trigger x (cancelRetired g.seq (releaseRef g.setting (reportRetired g b))))

/-- Every retirement of an H advance, oldest first. -/
def retireAll (x : Ctx) (b : Blocks) : Blocks := (b.track.segs.filter (retires x)).foldl (retire x) b

/-! ### The track at an H advance (R23, R40) -/

/-- An ENTERING STARVED BLANK with no due end takes one where the staged order is ready (R40). -/
def starvedCheck (x : Ctx) (b : Blocks) : Blocks :=
  match b.track.entering, b.plan.staged, b.track.boundary with
  | some g, some o, .opened none =>
    if g.origin = .starved ∧ o.isReady ∧ pastRecorded x.motion.h b.track g then
      b.modTrack fun t => { t with boundary := .opened (some (alignFor b.stations o x.motion.h)) }
    else b
  | _, _, _ => b

/-- The next PENDING seam due at or below a position. -/
def dueSeam (h : Nat) (t : Track) : Option PendingSeam :=
  t.seams.find? fun e => e.absorbedBy.isNone && decide (e.due ≤ h)

/-- The position of a due boundary of the ENTERING segment: an OPEN due end at or below H, or H for a DEFERRED one not
yet tried. -/
def dueBoundary (h : Nat) (tried : Bool) (t : Track) : Option Nat :=
  match t.entering, t.boundary with
  | some g, .opened (some p) => if closingAt g p ≤ h then some (closingAt g p) else none
  | some g, .deferred _ => if !tried && pastRecorded h t g then some h else none
  | _, _ => none

/-- A boundary is DEFERRED. -/
def Boundary.isDeferred : Boundary → Bool
  | .deferred _ => true
  | .opened _ | .waiting _ => false

/-- The due matters at or below H, lowest position first, a seam before the boundary at one position (R23). `tried` says
that a DEFERRED boundary has been taken at this advance. The fuel is never used up (log 39). -/
def takeDue (x : Ctx) : Nat → Bool → Blocks → Blocks
  | 0, _, b => b
  | n + 1, tried, b =>
    let boundary := fun p =>
      let b' := takeBoundary x p b
      takeDue x n b'.track.boundary.isDeferred b'
    match dueSeam x.motion.h b.track, dueBoundary x.motion.h tried b.track with
    | some e, some p => if e.due ≤ p then takeDue x n tried (takeSeam x e b) else boundary p
    | some e, none => takeDue x n tried (takeSeam x e b)
    | none, some p => boundary p
    | none, none => b

/-- Enough rounds for every matter of one advance: each taken matter uses a pending seam or an entry (log 39). -/
def dueFuel : Nat := 80

/-- The track unit at an H advance (R23). -/
def trackAdvance (x : Ctx) (b : Blocks) : Blocks := takeDue x dueFuel false (starvedCheck x (retireAll x b))

/-! ### The seam detector (R32, R33) -/

/-- A seam joins the list in due-position order. -/
def insertSeam (d : Nat) (l : List PendingSeam) : List PendingSeam :=
  l.takeWhile (fun e => e.due ≤ d) ++ [⟨d, none⟩] ++ l.dropWhile (fun e => e.due ≤ d)

/-- A seam is offered to the pending seam list: it joins, or is dropped with SEAM_OVERFLOW (R33). -/
def offerSeam (x : Ctx) (d : Nat) (b : Blocks) : Blocks :=
  if b.track.seams.length < Config.seamPlaces then
    evaluateWants x (b.modTrack fun t => { t with seams := insertSeam d t.seams })
  else raise .seamOverflow 0 (b.modTrack fun t => { t with droppedSeams := inc16 t.droppedSeams })

/-- The edge lies within the debounce distance of the last accepted one (R32). -/
def debounced (x : Ctx) (t : Track) : Bool :=
  match t.debounce with
  | some r => decide ((x.motion.h : Int) - r < x.cfg.seamLength)
  | none => false

/-- An active edge of SEAM (R32). -/
def activeEdge (x : Ctx) (b : Blocks) : Blocks :=
  if debounced x b.track then b.modTrack fun t => { t with ignoredEdges := inc16 t.ignoredEdges }
  else
    offerSeam x (position x.motion.h (x.motion.h + x.cfg.detectorDistance))
      (b.modTrack fun t => { t with debounce := some x.motion.h })

/-! ### A WAITING boundary resolved (R31, R61) -/

/-- The staged order's fetch has completed READY: a WAITING boundary admits it. -/
def resolveReady (x : Ctx) (b : Blocks) : Blocks :=
  match b.track.boundary, b.track.entering, b.plan.staged with
  | .waiting p, some g, some o => if o.isReady then admitStaged x false g o (closingAt g p) b else b
  | _, _, _ => b

/-- The staged order has been rejected: a WAITING boundary admits a STARVED BLANK. -/
def resolveRejected (x : Ctx) (b : Blocks) : Blocks :=
  match b.track.boundary, b.track.entering with
  | .waiting p, some g => admitStarved x false g (closingAt g p) b
  | _, _ => b

end Sys2Proof.Machine
end

