-- ==== Sys2Proof/Machine/Plan.lean ====
section
/-! DEFINITION. The plan reader (03) and the completion of setting fetches (04): posting, taking, staging, rejection, and
what a fetch's end hands on. -/

namespace Sys2Proof.Machine

/-! ### Posting (R49 to R53) -/

/-- The next slot around the ring. -/
def nextSlot (n k : Nat) : Nat := if k + 1 < n then k + 1 else 0

/-- A valid closing word at the post index posts the slot (R50). -/
def postSlot (n : Nat) (p : Plan) : Plan :=
  { p with posted := p.posted + 1, postIndex := nextSlot n p.postIndex }

/-- A closing word is judged (R50, R51, R52). -/
def judgeClosing (x : Ctx) (slot : Nat) (w : Word) (b : Blocks) : Blocks :=
  if !validClosing w then raise .planBadClose slot b
  else if slot = b.plan.postIndex then b.modPlan (postSlot x.cfg.planSlots)
  else raise .planOutOfOrder slot b

/-- A host write word of the plan window that was not dropped (R49). -/
def planWord (x : Ctx) (off : Nat) (w : WriteWord) (b : Blocks) : Blocks :=
  if off % 4 = 3 ∧ w.enables = 0xF#4 ∧ w.value ≠ 0 then judgeClosing x (off / 4) w.value b else b

/-- A host write word dropped in a protected slot (R53). -/
def planDropped (slot : Nat) (b : Blocks) : Blocks := raise .planOverwrite slot b

/-! ### Rejection (R57, R61) -/

/-- A rejection: the record, the cause and the count. -/
def rejectOrder (id : BitVec 16) (slot : Nat) (reason : RejectReason) (b : Blocks) : Blocks :=
  raise .orderRejected slot
    ((reportRejected id slot reason b).modPlan fun p => { p with rejected := inc32 p.rejected })

/-- The setting cache rejects the staged order (R61). -/
def rejectStaged (x : Ctx) (reason : RejectReason) (o : StagedOrder) (b : Blocks) : Blocks :=
  resolveRejected x (rejectOrder o.orderId o.slot reason (b.modPlan releaseStaged))

/-! ### Taking (R54 to R58) -/

/-- The slot read has returned: it is validated, and the freeing write follows (R55, R56). -/
def planReadDone (x : Ctx) (ws : List Word) (b : Blocks) : Blocks :=
  b.modPlan fun p =>
    if p.take = .reading then
      { p with take := .freeing, result := some (validateOrder x.cfg.minOrder p.takeIndex ws) }
    else p

/-- A valid order becomes the staged order, and a PRINT order's setting is looked up (R58, R59). -/
def stageOrder (o : StagedOrder) (b : Blocks) : Blocks :=
  let b' := b.modPlan fun p => { p with staged := some o, take := .staged }
  if o.kind.usesSetting then lookupStaged o.settingNumber b' else b'

/-- The freeing write has completed: the indices, then the order staged or rejected (R56, R57). -/
def freeingDone (x : Ctx) (b : Blocks) : Blocks :=
  if b.plan.take = .freeing then
    let slot := b.plan.takeIndex
    let b' := b.modPlan fun p =>
      { p with
        posted := p.posted - 1
        takeIndex := nextSlot x.cfg.planSlots p.takeIndex
        taken := inc32 p.taken
        take := .idle
        result := none }
    match b.plan.result with
    | some (.valid o) => stageOrder o b'
    | some (.invalid id reason) => rejectOrder id slot reason b'
    | none => b'
  else b

/-! ### References of restored segments (R196) -/

/-- A reference of a restore claim on an entry, after a change. -/
def mapLink (e : Fin 8) (f : SettingRef → SettingRef) (r : SettingRef) : SettingRef :=
  if r.link = .restoring e then f r else r

/-- The references of a segment and of its continuation owed. -/
def mapRefs (f : SettingRef → SettingRef) (g : Segment) : Segment :=
  { g with
    setting := g.setting.map f
    contOwed := g.contOwed.map fun c => { c with setting := c.setting.map f } }

/-- The claim has completed: its references hold the entry and its version. -/
def holdRefs (e : Fin 8) (version : Nat) (t : Track) : Track :=
  { t with segs := t.segs.map (mapRefs (mapLink e fun r => { r with entry := e, version := version, link := .held })) }

/-- The segment's own reference waits on the claim of an entry. -/
def restoresOn (e : Fin 8) (g : Segment) : Bool :=
  match g.setting with
  | some r => decide (r.link = .restoring e)
  | none => false

/-- The claim has failed: its segments get CUES_LOST, and their setting is absent from then on. -/
def loseRefs (e : Fin 8) (t : Track) : Track :=
  let flag := fun g => if restoresOn e g then modFlags (fun f => { f with cuesLost := true }) g else g
  { t with segs := t.segs.map fun g => mapRefs (mapLink e fun r => { r with link := .lost }) (flag g) }

/-! ### The end of a fetch (R73, R74, R79) -/

/-- The staged order holds an entry and waits for its fetch. -/
def stagedOn (e : Fin 8) (p : Plan) : Option StagedOrder :=
  p.staged.filter fun o => decide (o.state = .fetching) && decide (o.ref.map (·.1) = some e)

/-- The completion READY handed to the claimants: the restored segments with their rebuild batches, oldest segment
first, then the plan reader and the track (R73, R79, R94, log 48). -/
def handReady (x : Ctx) (e : Fin 8) (b : Blocks) : Blocks :=
  let version := b.cache.entries[e].version
  let restored := (b.track.segs.filter (restoresOn e)).map (·.seq)
  let b := b.modTrack (holdRefs e version)
  let b := restored.foldl (fun b q => match b.track.find q with
    | some g => rebuildBatch x b g
    | none => b) b
  let b := match stagedOn e b.plan with
    | some o => resolveReady x (b.modPlan fun p => { p with staged := some { o with state := .ready } })
    | none => b
  evaluateWants x b

/-- A fetch completes with a valid record (R73): the entry is READY; with no reference left it is choosable (R72). -/
def fetchReady (x : Ctx) (e : Fin 8) (t : Setting) (b : Blocks) : Blocks :=
  let b := b.modCache fun c =>
    (c.endFetch e).modEntry e fun r => { r with state := .ready, restarts := 0, contents := some t }
  let b := handReady x e b
  if b.cache.entries[e].count = 0 then retryLookup b else b

/-- The entry of a failed fetch becomes FREE; where its count falls to 0, it moves in the use order (R69, R70). -/
def Cache.failEntry (e : Fin 8) (c : Cache) : Cache :=
  let c' := (c.endFetch e).modEntry e CacheEntry.freed
  if 0 < c.entries[e].count then c'.touch e else c'

/-- A fetch fails (R73, R74): the entry is FREE, its claimants hear the reason, and a waiting lookup is retried. -/
def fetchFailed (x : Ctx) (e : Fin 8) (reason : RejectReason) (b : Blocks) : Blocks :=
  let b := (withdrawFetch e b).modCache (Cache.failEntry e)
  let b := b.modTrack (loseRefs e)
  let b := match stagedOn e b.plan with
    | some o => rejectStaged x reason o b
    | none => b
  retryLookup b

/-- A failed validation is recorded as the last setting fault (R67). -/
def recordSettingFault (n : Nat) (d : SettingDetail × Option Nat) (b : Blocks) : Blocks :=
  b.modCache fun c => { c with lastFault := some ⟨n, d.1, d.2⟩, failures := inc16 c.failures }

/-- The last burst of a fetch has returned: the record is validated (R67, R73). -/
def fetchDone (x : Ctx) (e : Fin 8) (ws : List Word) (b : Blocks) : Blocks :=
  let n := b.cache.entries[e].number
  match validateSetting x.cfg.screenCount x.cfg.zoneCount b.stations.station n ws with
  | .ok t => fetchReady x e t b
  | .error d => fetchFailed x e .settingBad (recordSettingFault n d b)

/-- A burst of the first fetch has returned (R73). -/
def fetchBurst (x : Ctx) (ws : List Word) (b : Blocks) : Blocks :=
  match b.cache.fetchQueue with
  | [] => b
  | e :: _ =>
    let all := b.cache.words ++ ws
    if all.length < 64 then b.modCache fun c => { c with words := all } else fetchDone x e all b

/-- A host write into the record of a number (R69, R74, R75). -/
def recordWritten (x : Ctx) (n : Nat) (b : Blocks) : Blocks :=
  match b.cache.current n with
  | none => b
  | some e =>
    if b.cache.entries[e].state = .ready then supersede e b
    else if b.cache.entries[e].restarts < 3 then restartFetch e b
    else fetchFailed x e .settingUnstable b

/-! ### Restore claims (R79, R196) -/

/-- The setting numbers that segments and continuations owed refer to, in the order in which they first appear: the
order of their claims (log 48). -/
def restoredNumbers (segs : List Segment) : List Nat :=
  (segs.filterMap fun g => (settingUsed g).map (·.number)).foldl (fun l n => if l.contains n then l else l ++ [n]) []

/-- The number of referring segments and continuations owed. -/
def usersOf (n : Nat) (segs : List Segment) : Nat :=
  (segs.filter fun g => decide ((settingUsed g).map (·.number) = some n)).length

/-- The lowest-numbered FREE entry. -/
def Cache.lowestFree (c : Cache) : Option (Fin 8) := cacheEntries.find? fun e => decide (c.entries[e].state = .free)

/-- The staged order refers to a setting number. -/
def stagedNumber (p : Plan) : Option Nat := (p.staged.filter fun o => o.kind.usesSetting).map (·.settingNumber)

/-- The segments of a number get CUES_LOST: their claim found no FREE entry (log 25). -/
def loseNumber (n : Nat) (t : Track) : Track :=
  { t with segs := t.segs.map fun g =>
      if g.setting.map (·.number) = some n then modFlags (fun f => { f with cuesLost := true }) g else g }

/-- One restore claim for the segments of a number, and for the staged order where it is among the users. With no FREE
entry, which 8 numbers never meet, the references stay lost (log 25). -/
def restoreClaim (b : Blocks) (n : Nat) : Blocks :=
  let staged := decide (stagedNumber b.plan = some n)
  match b.cache.lowestFree with
  | none =>
    let b' := b.modTrack (loseNumber n)
    if staged then lookupStaged n b' else b'
  | some e =>
    let users := usersOf n b.track.segs + boolNat staged
    let c := b.cache.beginFetch e n users
    let b := (b.setCache c).modTrack fun t =>
      { t with segs := t.segs.map (mapRefs fun r => if r.number = n then { r with link := .restoring e } else r) }
    if staged then tellStaged (.fetching e c.entries[e].version) b else b

/-- Every restore claim: first those of the segments, then the staged order's own, which may wait (R79). The staged
order's setting number is claimed as the snapshot gives it, one of 512 to 1023 too (log 21). -/
def restoreClaims (b : Blocks) : Blocks :=
  let numbers := restoredNumbers b.track.segs
  let b' := numbers.foldl restoreClaim b
  match stagedNumber b'.plan with
  | some n => if numbers.contains n then b' else lookupStaged n b'
  | none => b'

end Sys2Proof.Machine
end

