-- ==== Sys2Proof/Machine/Field.lean ====
section
/-! DEFINITION. The field line controller (08): link cycles, exchanges, command frames, replies and misses, module states,
faults and items. -/

namespace Sys2Proof.Machine

/-- The exchange in progress, where it is in a phase. -/
def FieldLine.inPhase (f : FieldLine) (ph : ExchangePhase) : Option Exchange :=
  f.exchange.filter fun e => decide (e.phase = ph)

/-- A change of one entry of the module table. -/
def modModule (a : Fin 24) (f : Module → Module) (b : Blocks) : Blocks :=
  b.modField fun s => { s with module := Bank.modify s.module a f }

/-- The source number of a module: its address. -/
def moduleSource (a : Fin 24) : Nat := a.val + 1

/-- The screen, or the zone, that a module serves. -/
def moduleScreen (a : Fin 24) : Option (Fin 16) := if h : a.val < 16 then some ⟨a.val, h⟩ else none
def moduleZone (a : Fin 24) : Option (Fin 8) := if h : 16 ≤ a.val then some ⟨a.val - 16, by omega⟩ else none

/-! ### Link cycles (R143, R144) -/

/-- The lowest configured module, or the lowest above the last one exchanged (R144). -/
def chooseModule (x : Ctx) (b : Blocks) (last : Option (Fin 24)) : Option (Fin 24) :=
  modules.find? fun a =>
    configured x b a && match last with
      | some l => decide (l.val < a.val)
      | none => true

/-- An exchange with a module begins with its wait for quiet (R145). -/
def beginExchange (a : Fin 24) (f : FieldLine) : FieldLine := { f with exchange := some ⟨a, .quiet, false⟩ }

/-- A cycle starts (R143, R144), and its phase references go by the mount data now in force (R100). One with no module
configured ends at its start. -/
def startCycle (x : Ctx) (b : Blocks) : Blocks :=
  let f := { b.field with
    cycles := b.field.cycles + 1
    cycleTimer := some x.cfg.cyclePeriod
    phase := Bank.tabulate fun k => b.stations.station[k].mount.phaseData }
  match chooseModule x b none with
  | some a => b.setField (beginExchange a f)
  | none => b.setField { f with exchange := none, lastDuration := 0 }

/-- A cycle ends at a time from its start (R143): idle, or an owed start at once. -/
def endCycle (x : Ctx) (elapsed : Nat) (b : Blocks) : Blocks :=
  let b := b.modField fun f => { f with exchange := none, lastDuration := min 65535 elapsed }
  if b.field.startOwed then
    startCycle x (b.modField fun f => { f with startOwed := false, overruns := inc16 f.overruns })
  else b

/-- The item selector toggles at the end of every exchange with a module (R153). -/
def toggleSelector (a : Fin 24) (b : Blocks) : Blocks := modModule a (fun m => { m with selector := !m.selector }) b

/-- An exchange ends, and the next module is chosen, or the cycle ends (R143, R144, R153). -/
def endExchange (x : Ctx) (a : Fin 24) (elapsed : Nat) (b : Blocks) : Blocks :=
  let b := toggleSelector a b
  match chooseModule x b (some a) with
  | some n => b.modField (beginExchange n)
  | none => endCycle x elapsed b

/-- The cycle timer expires (R143). It does not restart itself. -/
def cycleExpiry (x : Ctx) (b : Blocks) : Blocks :=
  let b := b.modField fun f => { f with cycleTimer := none }
  match b.field.exchange with
  | none => startCycle x b
  | some _ => b.modField fun f => { f with startOwed := true }

/-! ### Module states (R148 to R151) -/

/-- The line-wide count of a reason. -/
def MissReason.index : MissReason → Fin 7
  | .noReply => 0
  | .lineBusy => 1
  | .framing => 2
  | .length => 3
  | .crc => 4
  | .address => 5
  | .content => 6

/-- A module after a miss, as far as its state goes (R149). -/
def Module.missed (m : Module) : Module :=
  if m.online then
    if m.misses < 2 then { m with misses := m.misses + 1 }
    else { m with online := false, misses := 3, goods := 0, faultMarker := false }
  else { m with goods := 0 }

/-- A module after a good reply, as far as its state goes (R149). -/
def Module.answered (m : Module) : Module :=
  if m.online then { m with misses := 0 }
  else if m.goods = 0 then { m with goods := 1 }
  else { m with online := true, goods := 2, misses := 0 }

/-- A loss handed on: to the station of a screen (R107), or raised for a zone module (R151). -/
def handLoss (x : Ctx) (a : Fin 24) (b : Blocks) : Blocks :=
  match moduleScreen a with
  | some k => stationLost x k b
  | none => raiseAt .moduleLost (moduleSource a) .hold b

/-- A miss of a module with its reason (R147, R149, R150). -/
def countMiss (x : Ctx) (a : Fin 24) (r : MissReason) (b : Blocks) : Blocks :=
  let b := b.modField fun f => { f with missCounts := Bank.modify f.missCounts r.index inc16 }
  let b := modModule a (fun m => { m with totalMisses := inc16 m.totalMisses, lastMiss := some r }) b
  if configured x b a then
    let was := b.field.module[a].online
    let b := modModule a Module.missed b
    if was && !b.field.module[a].online then handLoss x a b else b
  else b

/-! ### Good replies (R150, R152 to R154) -/

/-- The fault bit of a good reply. -/
def GoodReply.fault : GoodReply → Bool
  | .screen _ _ f => f
  | .zone _ f => f

/-- The fault marker follows the fault bit (R152). -/
def takeFault (a : Fin 24) (fault : Bool) (b : Blocks) : Blocks :=
  let was := b.field.module[a].faultMarker
  let b := modModule a (fun m => { m with faultMarker := fault }) b
  if fault && !was then raise .moduleFault (moduleSource a) b else b

/-- PASTE_LOW: a screen's PASTE_LEVEL falls below 100 from absent or from 100 and more (R154). -/
def pasteFalls (a : Fin 24) (old : Option Nat) (new : Nat) : Bool :=
  decide (a.val < 16 ∧ new < 100) && match old with
    | some v => decide (100 ≤ v)
    | none => true

/-- The item that the selector names takes the reply's value, clamped (R153). -/
def takeItem (a : Fin 24) (selector : Bool) (value : Nat) (b : Blocks) : Blocks :=
  let v := min 1000 value
  if selector then modModule a (fun m => { m with item1 := some v }) b
  else
    let old := b.field.module[a].item0
    let b := modModule a (fun m => { m with item0 := some v }) b
    if pasteFalls a old v then raise .pasteLow (moduleSource a) b else b

/-- A good reply handed to the block its module serves (R150). -/
def handReply (x : Ctx) (a : Fin 24) (r : GoodReply) (b : Blocks) : Blocks :=
  match r with
  | .screen pos error _ =>
    match moduleScreen a with
    | some k => if (b.stationOf k).mount.mounted then stationReply x k pos error b else b
    | none => b
  | .zone temp _ =>
    match moduleZone a with
    | some z => if listed x.cfg z then zoneReply z temp b else b
    | none => b

/-- A good reply (R149, R150, R152, R153). The change of state is taken before the reply is handed on. A module that has
become unconfigured since its exchange began changes no state, and nothing is handed on; its reply, its fault bit and its
item are taken as any other's (log 29). -/
def goodReply (x : Ctx) (a : Fin 24) (selector : Bool) (r : GoodReply) (item : Nat) (b : Blocks) : Blocks :=
  let b := modModule a (fun m => { m with lastGood := some r }) b
  if configured x b a then
    handReply x a r (takeItem a selector item (takeFault a r.fault (modModule a Module.answered b)))
  else takeItem a selector item (takeFault a r.fault b)

/-- The reply of the exchange in progress is judged, and the exchange ends (R145, R147). -/
def judgeFrame (x : Ctx) (e : Exchange) (bytes : List Byte) (framing : Bool) (elapsed : Nat) (b : Blocks) : Blocks :=
  let b := match judgeReply (moduleSource e.module) (decide (e.module.val < 16)) e.selector framing bytes with
    | .ok r => goodReply x e.module e.selector r.1 r.2 b
    | .error reason => countMiss x e.module reason b
  endExchange x e.module elapsed b

/-- A miss with no reply judged, and the exchange ends (R145). -/
def missExchange (x : Ctx) (e : Exchange) (r : MissReason) (elapsed : Nat) (b : Blocks) : Blocks :=
  endExchange x e.module elapsed (countMiss x e.module r b)

/-! ### Command frames (R146) -/

/-- The command frame of a module, built from what its station or zone supplies at this moment. A screen unmounted since
its exchange began gets one too: UP, rate 0, and a phase reference that is a free value (log 29). -/
def commandFrame (x : Ctx) (b : Blocks) (a : Fin 24) : List Byte :=
  let selector := b.field.module[a].selector
  match moduleScreen a, moduleZone a with
  | some k, _ =>
    let st := b.stationOf k
    screenFrame (moduleSource a) (liftCommandDown st.lift) selector (phaseReference x k b.field.phase[k] st) (pasteRate b k)
  | none, some z =>
    let r := b.oven.zone[z]
    zoneFrame (moduleSource a) r.mode selector (setpointInForce x.cfg r).1 (airSent r)
  | none, none => []

/-- The line has been quiet: the command frame is built and its sending begins (R145, R146). -/
def sendCommand (x : Ctx) (e : Exchange) (b : Blocks) : Blocks :=
  let frame := commandFrame x b e.module
  b.modField fun f =>
    { f with
      exchange := some { e with phase := .sending, selector := f.module[e.module].selector }
      lineDriven := true
      command := frame }

/-- The last stop bit of a command frame: the line is released and the reply timer starts (R141, R145). -/
def commandSent (x : Ctx) (b : Blocks) : Blocks :=
  b.modField fun f =>
    match f.exchange with
    | some ⟨a, .sending, s⟩ =>
      { f with lineDriven := false, exchange := some ⟨a, .awaiting, s⟩, replyTimer := some x.cfg.replyTimeout }
    | _ => { f with lineDriven := false }

/-! ### Arming (R156) -/

/-- The module table at a warm arming: totals, last reasons and last replies stay. -/
def Module.rearmed (m : Module) : Module := m.reconfigured

/-- The field line at an arming result, before the first cycle starts. A frame being sent is finished. -/
def FieldLine.coldArmed (f : FieldLine) : FieldLine :=
  { FieldLine.reset with lineDriven := f.lineDriven, command := f.command }

def FieldLine.warmArmed (f : FieldLine) : FieldLine :=
  { f with
    module := Bank.tabulate fun a => f.module[a].rearmed
    exchange := none
    replyTimer := none
    startOwed := false }

end Sys2Proof.Machine
end

