-- ==== Sys2Proof/Machine/Status.lean ====
section
/-! DEFINITION. The image of the status block (R164, R165, R198, section 12.4): the summary, the page in force, the
module items and the counts. -/

namespace Sys2Proof.Machine

/-! ### Codes (section 12.4) -/

def PartState.code : PartState → Nat
  | .dormant => 0
  | .arming _ => 1
  | .armed => 2

def MotionState.code : MotionState → Nat
  | .halted => 0
  | .advancing => 1
  | .backing => 2

def TakeState.code : TakeState → Nat
  | .idle => 0
  | .reading => 1
  | .freeing => 2
  | .staged => 3

def SettingState.code : SettingState → Nat
  | .none => 0
  | .fetching => 1
  | .waitingEntry => 2
  | .ready => 3

def SettingDetail.code : SettingDetail → Nat
  | .validity => 1
  | .engage => 2
  | .paste => 3
  | .profile => 4
  | .cure => 5
  | .terminator => 6
  | .cueAction => 7
  | .cueTarget => 8
  | .cueOffset => 9
  | .cueValue => 10

def MountDetail.code : MountDetail → Nat
  | .badCheck => 1
  | .moving => 2
  | .range => 3
  | .badLead => 4
  | .notLifted => 5
  | .trimUnmounted => 6
  | .trimRange => 7

def EntryState.code : EntryState → Nat
  | .free => 0
  | .fetching => 1
  | .ready => 2
  | .superseded => 3

def FaultReason.code : FaultReason → Nat
  | .start => 0
  | .unexpected => 1
  | .timeout => 2
  | .moduleLost => 3

def LiftState.code : LiftState → Nat
  | .lifted => 0
  | .lowering => 1
  | .engaged => 2
  | .lifting => 3
  | .fault _ => 4

def LiftState.reasonCode : LiftState → Nat
  | .fault r => r.code
  | .lifted | .lowering | .engaged | .lifting => 0

def SetpointSource.code : SetpointSource → Nat
  | .profile => 0
  | .cue => 1
  | .held => 2
  | .standby => 3

def MissReason.code : MissReason → Nat
  | .noReply => 1
  | .lineBusy => 2
  | .framing => 3
  | .length => 4
  | .crc => 5
  | .address => 6
  | .content => 7

/-! ### Packing of a page (R198) -/

/-- A field of a page: of 16 bits or fewer, of 32 bits, or of 40 bits. -/
inductive PageField
  | half (v : Nat)
  | word (v : Nat)
  | wide (v : Nat)
  deriving DecidableEq, Repr

/-- A field that begins at a whole word, after half words already placed. -/
def atWord (acc : List Nat) (halves : List Nat) : List Nat :=
  (if acc.length % 2 = 0 then acc else acc ++ [0]) ++ halves

/-- The half words after one more field. -/
def placeField (acc : List Nat) : PageField → List Nat
  | .half v => acc ++ [v]
  | .word v => atWord acc [v % 65536, v / 65536 % 65536]
  | .wide v => atWord acc [v % 65536, v / 65536 % 65536, high8 v, 0]

/-- The 16 words of a page from its half words, missing ones zero. -/
def wordsOfHalves (halves : List Nat) : List Word :=
  (List.range 16).map fun i => pack [(0, 16, halves.getD (2 * i) 0), (16, 16, halves.getD (2 * i + 1) 0)]

/-- The 16 words of a page from its fields in order. -/
def packPage (fields : List PageField) : List Word := wordsOfHalves (fields.foldl placeField [])

/-- The value of a field within one half word, from bit 0 upward. -/
def halfOf (fields : List (Nat × Nat × Nat)) : Nat := (pack fields).toNat

/-! ### Pages (R165) -/

/-- The half word of a cause kind: source and raise count. -/
def causeHalf (cs : CauseSet) (k : CauseKind) : Nat :=
  match cs.entry k with
  | some e => halfOf [(0, 8, e.source), (8, 8, e.count)]
  | none => 0

def page0 (b : Blocks) : List Word := wordsOfHalves (CauseKind.all.map (causeHalf b.causes) ++ [b.report.acks])

def page1 (x : Ctx) (b : Blocks) : List Word :=
  let t := b.track
  packPage
    [.half x.motion.encErrors, .word x.motion.lostUnits, .half t.ignoredEdges, .half t.droppedSeams,
     .half t.absorbedSeams, .word t.discarded, .word t.seqCounter, .half t.boundary.code,
     .half (boolNat t.starvedHold)]

def page2 (b : Blocks) : List Word :=
  let p := b.plan
  let c := b.cache
  packPage
    [.half p.take.code, .half ((p.staged.map (·.orderId.toNat)).getD 0), .half ((p.staged.map (·.state.code)).getD 0),
     .word p.taken, .word p.rejected, .half (c.waiting.getD 0),
     .half ((c.lastFault.map (·.number)).getD 0), .half ((c.lastFault.map (·.detail.code)).getD 0),
     .half ((c.lastFault.bind (·.cue)).getD 0),
     .half c.fetches, .half c.restarts, .half c.supersedes, .half c.failures]

def page3 (b : Blocks) : List Word :=
  let s := b.cues
  let head := s.queue.head?
  packPage
    [.wide ((head.map (·.due)).getD 0), .half ((head.map (·.cue.action.code)).getD 0),
     .half ((head.map (·.cue.target)).getD 0), .word ((head.map (·.seq)).getD 0),
     .word ((head.map (·.number.toNat)).getD 0), .word s.insertions.toNat, .word s.fired, .half s.late,
     .half s.dropped, .half s.cancelled, .half s.stray, .half s.warmDiscarded]

/-- The half word of a screen in page 4. The spec names the fields from bit 0 upward and not their widths: each takes the
bits that its codes need (R165, R198, log 52). -/
def screenHalf (b : Blocks) (k : Fin 16) : Nat :=
  let st := b.stationOf k
  halfOf
    [(0, 1, boolNat st.mount.mounted), (1, 2, st.lift.reasonCode), (3, 1, boolNat (decide (st.want = .down))),
     (4, 1, boolNat st.override.isSome), (5, 1, boolNat st.pasteHold.isSome), (6, 1, boolNat st.pendingTrim.isSome),
     (7, 4, st.outOfReg)]

def page4 (b : Blocks) : List Word := wordsOfHalves (screens.map (screenHalf b))

def page5 (b : Blocks) : List Word :=
  let s := b.stations
  packPage
    [.half ((s.lastRefusal.map (·.1.code)).getD 0), .half ((s.lastRefusal.map (·.2)).getD 0), .half s.remounts,
     .half s.refusedRemounts, .half s.trimsTaken, .half s.trimsRefused, .half s.liftTimeouts, .half s.liftFaults,
     .half s.seamUnlifted]

/-- The two words of a zone in page 6: of a listed zone. -/
def zoneWords (x : Ctx) (b : Blocks) (z : Fin 8) : List Word :=
  let r := b.oven.zone[z]
  let f := setpointInForce x.cfg r
  if listed x.cfg z then
    [pack [(0, 12, f.1), (12, 2, f.2.code), (16, 12, r.runSet), (31, 1, boolNat b.field.module[z.val + 16].online)],
     pack [(0, 12, r.temp)]]
  else [0, 0]

def page6 (x : Ctx) (b : Blocks) : List Word := zones.flatMap (zoneWords x b)

/-- The verdict counts stand in the order CURED, UNVERIFIED, UNDERCURED, OVERCURED (log 52). -/
def page7 (b : Blocks) : List Word :=
  let o := b.oven
  packPage
    [.half o.dwellCount, .half (probesInZones b.track), .word o.cured, .word o.unverified, .word o.undercured,
     .word o.overcured, .half o.standbys, .half o.vents, .half o.coverageShort]

/-- The first word of a module's detail (R198): its last good reply in bits 24 to 27. -/
def moduleWord (m : Module) : Word :=
  let good := match m.lastGood with
    | some (.screen pos _ f) => [(24, 1, 1), (25, 1, boolNat f), (26, 2, pos.code)]
    | some (.zone _ f) => [(24, 1, 1), (25, 1, boolNat f)]
    | none => []
  pack ([(0, 16, m.totalMisses), (16, 2, m.misses), (18, 2, m.goods), (20, 3, (m.lastMiss.map (·.code)).getD 0),
    (23, 1, boolNat m.faultMarker)] ++ good)

/-- The second word of a module's detail: phase error or temperature of its last good reply. -/
def moduleReplyWord (m : Module) : Word :=
  match m.lastGood with
  | some (.screen _ error _) => pack [(0, 16, twos 16 error)]
  | some (.zone temp _) => pack [(0, 12, temp)]
  | none => 0

/-- The two words of a module in pages 8 to 10: of a configured module (R155). -/
def moduleWords (x : Ctx) (b : Blocks) (a : Fin 24) : List Word :=
  let m := b.field.module[a]
  if configured x b a then [moduleWord m, moduleReplyWord m] else [0, 0]

/-- The page of the modules from index `lo` on. -/
def modulePage (x : Ctx) (b : Blocks) (lo : Nat) : List Word :=
  (modules.filter fun a => decide (lo ≤ a.val ∧ a.val < lo + 8)).flatMap (moduleWords x b)

/-- The miss counts stand in the order of the reasons' codes (log 52). -/
def page11 (b : Blocks) : List Word :=
  let f := b.field
  packPage ([.word f.cycles.toNat, .half f.overruns, .half f.lastDuration] ++ f.missCounts.toList.map .half ++
    [.half f.lateFrames])

def page12 (b : Blocks) : List Word :=
  let r := b.report
  packPage
    [.word r.rejections.toNat, .word r.rejectionsLost.toNat, .half r.stallsBegun, .half r.stallsFilled,
     .half r.stallsExpired, .word b.path.dropped, .half b.restart.generation.toNat]

/-- Words 16 to 31: the page in force. -/
def pageWords (x : Ctx) (b : Blocks) : List Word :=
  match b.report.page with
  | 0 => page0 b
  | 1 => page1 x b
  | 2 => page2 b
  | 3 => page3 b
  | 4 => page4 b
  | 5 => page5 b
  | 6 => page6 x b
  | 7 => page7 b
  | 8 => modulePage x b 0
  | 9 => modulePage x b 8
  | 10 => modulePage x b 16
  | 11 => page11 b
  | _ => page12 b

/-! ### Summary, items and counts -/

/-- The number of full slots. -/
def Report.fullSlots (r : Report) : Nat := (r.full.filter id).length

/-- The number of segment outcomes waiting in the queue. -/
def Report.segmentsWaiting (r : Report) : Nat := (r.queue.filter (·.segment)).length

/-- Word 6: the latched map, with the level of MODULE_LOST in bit 31. -/
def latchedMap (cs : CauseSet) : Word :=
  pack (CauseKind.all.map (fun k => (k.number.val, 1, boolNat (cs.entry k).isSome)) ++
    [(31, 1, boolNat (decide ((cs.entry .moduleLost).map (·.level) = some .trip)))])

/-- Word 7: the ONLINE map of the configured modules. -/
def onlineMap (x : Ctx) (b : Blocks) : Word :=
  pack (modules.map fun a => (a.val, 1, boolNat (configured x b a && b.field.module[a].online)))

/-- Lift states of 8 screens from index `lo` on, four bits each. -/
def liftWord (b : Blocks) (lo : Nat) : Word :=
  pack ((screens.filter fun k => decide (lo ≤ k.val ∧ k.val < lo + 8)).map fun k =>
    (4 * (k.val - lo), 4, (b.stationOf k).lift.code))

/-- Words 1 to 15 (section 12.4). The count of pending seams is that of the list, ABSORBED entries with it (log 60). -/
def summaryWords (x : Ctx) (b : Blocks) : List Word :=
  let r := b.report
  let m := x.motion
  [ pack [(0, 2, b.restart.part.code), (2, 2, m.state.code), (4, 1, boolNat b.holdLine), (5, 1, boolNat b.tripLine),
      (6, 1, boolNat (alertLine x b)), (7, 1, boolNat b.markLine), (8, 4, r.page), (12, 2, b.oven.dwellStage),
      (16, 7, b.track.segs.length), (24, 3, b.track.seams.length)],
    low32 m.p, pack [(0, 8, high8 m.p)],
    low32 m.h, pack [(0, 8, high8 m.h), (16, 16, m.speed)],
    latchedMap b.causes,
    onlineMap x b,
    liftWord b 0, liftWord b 8,
    pack [(0, 8, b.plan.postIndex), (8, 8, b.plan.takeIndex), (16, 9, b.plan.posted)],
    pack [(0, 7, r.writeIndex), (8, 8, r.fullSlots), (16, 4, r.queue.length), (24, 7, b.cues.queue.length)],
    pack (cacheEntries.map (fun e => (2 * e.val, 2, b.cache.entries[e].state.code)) ++
      [(16, 16, b.stations.generation.toNat)]),
    pack ((listedZones x.cfg).map fun z => (2 * z.val, 2, b.oven.zone[z].mode.code)),
    0, 0 ]

/-- The items of a module, each 65,535 while absent (R155). -/
def itemWord (m : Module) : Word := pack [(0, 16, m.item0.getD 65535), (16, 16, m.item1.getD 65535)]

/-- The 64 words of a rewrite (R166). -/
def statusImage (x : Ctx) (b : Blocks) : List Word :=
  let r := b.report
  [r.rewriteNumber] ++ summaryWords x b ++ pageWords x b ++ modules.map (fun a => itemWord b.field.module[a]) ++
  [0, BitVec.ofNat 32 r.page, r.retired, r.segmentsWritten, r.outcomesLost, r.rejectionsWritten,
   pack [(0, 4, r.segmentsWaiting), (8, 8, r.rejectionsLost.toNat), (16, 16, r.overwritten.toNat)], r.rewriteNumber]

/-- The bursts of a rewrite: words 56–63 first, words 0–7 last (R166). -/
def statusBursts (image : List Word) : List Burst := (bursts 0 8 image).reverse

end Sys2Proof.Machine
end

