-- ==== Sys2Proof/Machine/Settle.lean ====
section
/-! DEFINITION. What the blocks begin at once at the end of a step: a take, a burst of a fetch, a record write, a rewrite,
the restart unit's next access; and the arbiter's grant (log 10). -/

namespace Sys2Proof.Machine

/-- A request, where the requester has no access outstanding (R181). -/
def requestIfFree (r : Requester) (a : Option Access) (b : Blocks) : Blocks :=
  match a with
  | some a => if b.path.outstanding r then b else b.modPath fun p => p.request a
  | none => b

/-! ### Plan reader (R54) -/

/-- From IDLE a take begins when a slot is posted and no order is staged. -/
def startTake (b : Blocks) : Blocks :=
  if b.live ∧ b.plan.take = .idle ∧ 0 < b.plan.posted ∧ b.plan.staged = none then
    b.modPlan fun p => { p with take := .reading }
  else b

/-- The access of the take in progress: the slot read, or the freeing write (R54, R56). -/
def planAccess (c : Anchor) (p : Plan) : Option Access :=
  match p.take with
  | .reading => some (readAccess .planRead (c.planBase + 4 * p.takeIndex) 4)
  | .freeing => some (writeAccess .freeingWrite (c.planBase + 4 * p.takeIndex + 3) [0])
  | .idle | .staged => none

def pumpPlan (x : Ctx) (b : Blocks) : Blocks :=
  let b := startTake b
  requestIfFree .plan (planAccess x.cfg b.plan) b

/-! ### Setting cache (R73) -/

/-- The next burst of the fetch that began first. -/
def cacheAccess (c : Anchor) (k : Cache) : Option Access :=
  k.fetchQueue.head?.map fun e =>
    readAccess .settingRead (c.settingsBase + 64 * k.entries[e].number + k.words.length) 8

def pumpCache (x : Ctx) (b : Blocks) : Blocks := requestIfFree .cache (cacheAccess x.cfg b.cache) b

/-! ### Report unit (R161, R166) -/

/-- The five accesses of a record write: words 1–8, 9–16, 17–24, 25–31, and word 0 (R161). -/
def recordBursts (slot : Nat) (ws : List Word) : List Burst :=
  [⟨32 * slot + 1, (ws.drop 1).take 8⟩, ⟨32 * slot + 9, (ws.drop 9).take 8⟩, ⟨32 * slot + 17, (ws.drop 17).take 8⟩,
   ⟨32 * slot + 25, (ws.drop 25).take 7⟩, ⟨32 * slot, ws.take 1⟩]

/-- A slot of the slot-full map is full. -/
def Report.isFull (r : Report) (k : Nat) : Bool := r.full.getD k false

/-- The oldest record is judged against the write index slot (R161). None begins while the outcome map is rebuilt
(R196). -/
def startRecord (c : Anchor) (b : Blocks) : Blocks :=
  match b.report.recordWrite, b.report.queue, b.restart.mapNext with
  | none, r :: _, none =>
    if b.report.isFull b.report.writeIndex then
      match c.policy with
      | .holdLine => b
      | .overwrite => b.modReport fun p =>
          { p with recordWrite := some (recordBursts p.writeIndex r.words), overwritten := p.overwritten + 1 }
    else b.modReport fun p => { p with recordWrite := some (recordBursts p.writeIndex r.words) }
  | _, _, _ => b

/-- A rewrite begins when one is owed, none is in progress and no freeze is in force (R166). -/
def startRewrite (x : Ctx) (b : Blocks) : Blocks :=
  if b.live ∧ b.report.rewriteOwed ∧ b.report.rewrite = none ∧ ¬ b.path.freeze then
    let b := b.modReport fun r => { r with rewriteOwed := false, rewriteNumber := r.rewriteNumber + 1 }
    b.modReport fun r => { r with rewrite := some (statusBursts (statusImage x b)) }
  else b

/-- The kind of the next access of a record write: word 0 comes last. -/
def recordKind (rest : List Burst) : AccessKind := if rest = [] then .recordWord0 else .recordBurst

/-- The report unit's next access: the record write's before the rewrite's (R161); none of a rewrite in a freeze
(R167). -/
def reportAccess (c : Anchor) (r : Report) (freeze : Bool) : Option Access :=
  match r.recordWrite with
  | some (u :: rest) => some (writeAccess (recordKind rest) (c.outcomeBase + u.offset) u.words)
  | _ =>
    match r.rewrite with
    | some (u :: _) => if freeze then none else some (writeAccess .statusBurst (c.statusBase + u.offset) u.words)
    | _ => none

def pumpReport (x : Ctx) (b : Blocks) : Blocks :=
  let b := startRewrite x (startRecord x.cfg b)
  requestIfFree .report (reportAccess x.cfg b.report b.path.freeze) b

/-! ### Restart unit (R188, R189, R192, R194, R196) -/

/-- The next access of the arming in progress. -/
def armingAccess (a : Arming) : Option Access :=
  let c := parseAnchor a.anchor
  match a.phase with
  | .anchor => some (readAccess .anchorRead a.anchor.length 8)
  | .mount => some (readAccess .mountRead (c.mountBase + a.mount.length) 8)
  | .snapshot =>
    let n := snapshotNext a.snapshot
    some (readAccess .snapshotRead (c.snapshotBase + n.1) n.2)

/-- The next access of a snapshot write: the first one's words are taken at its grant (R192, log 11). -/
def snapshotAccess (c : Anchor) (w : Option SnapshotWrite) : Option Access :=
  match w with
  | none => some (writeAccess .snapshotWrite c.snapshotBase (List.replicate 8 0))
  | some ⟨_, u :: rest⟩ =>
    some (writeAccess (if rest = [] then .snapshotClosing else .snapshotWrite) (c.snapshotBase + u.offset) u.words)
  | some ⟨_, []⟩ => none

/-- The access of the restart unit's present piece of work. -/
def restartAccess (c : Anchor) (r : Restart) : Option Access :=
  match r.work with
  | [] => none
  | .result code id :: _ => some (writeAccess .resultWrite 62 [resultWord code id])
  | .startWord :: _ => some (writeAccess .startWrite 61 [Config.warmWord])
  | .readArming :: _ => r.arming.bind armingAccess
  | .snapshot :: _ => snapshotAccess c r.writing
  | .outcomeMap :: _ => r.mapNext.map fun m => readAccess .mapRead (c.outcomeBase + 32 * m.1) 1

def pumpRestart (x : Ctx) (b : Blocks) : Blocks := requestIfFree .restart (restartAccess x.cfg b.restart) b

/-! ### The end of a step -/

/-- The capture of a snapshot write, at the grant of its first access (R192, log 11). -/
def captureAtGrant (x : Ctx) (b : Blocks) : Blocks :=
  match b.path.port, b.restart.writing with
  | .internal a false, none =>
    if a.kind = .snapshotWrite then
      let g := b.restart.generation + 1
      let us := snapshotBursts x b g
      let first := (us.head?.map (·.words)).getD []
      (b.modRestart fun r => { r with writing := some ⟨g, us⟩ }).modPath fun p =>
        { p with port := .internal { a with data := some first, count := first.length } false }
    else b
  | _, _ => b

/-- What follows at once at the end of a step (log 10): requests, and the grant decision where the port is free, as
`w` says (log 9). -/
def settle (x : Ctx) (w : Weigh) (b : Blocks) : Blocks :=
  captureAtGrant x (arbitrate x w (pumpReport x (pumpPlan x (pumpCache x (pumpRestart x b)))))

end Sys2Proof.Machine
end

