-- ==== Sys2Proof/Machine/Arming.lean ====
section
/-! DEFINITION. The restart unit (11): arming requests, the reading and checking of an arming, the arming results, the
completions of its own accesses, and the resets. -/

namespace Sys2Proof.Machine

/-! ### Arming requests (R186, R188) -/

/-- A piece of work joins the restart unit's work. -/
def addWork (ws : List Work) (r : Restart) : Restart := { r with work := r.work ++ ws }

/-- An arming request accepted: PENDING, and the reading of the anchor (R186). -/
def acceptArming (fromArmed : Bool) (id : BitVec 16) (r : Restart) : Restart :=
  addWork [.result .pending id, .readArming]
    { r with part := .arming fromArmed, arming := some ⟨id, .anchor, [], [], []⟩ }

/-- An arming request (R186, R188). -/
def requestArming (x : Ctx) (id : BitVec 16) (b : Blocks) : Blocks :=
  b.modRestart fun r =>
    match r.part with
    | .dormant => acceptArming false id r
    | .armed => if x.motion.state = .halted then acceptArming true id r else addWork [.result .refusedBusy id] r
    | .arming _ => addWork [.result .refusedBusy id] r

/-- The reading of an arming ends in a refusal: its code is to be written. -/
def endReading (code : ResultCode) (id : BitVec 16) (r : Restart) : Restart :=
  addWork [.result code id] { r with work := r.work.tail, arming := none }

/-- The part is ARMED again, and a set snapshot-pending flag begins its write (R193). -/
def backToArmed (x : Ctx) (r : Restart) : Restart :=
  let r := { r with part := .armed }
  if r.snapshotPending then { beginSnapshot x r with snapshotPending := false } else r

/-- A refused arming (R189, R193, R194). From ARMED the part goes back at once. From DORMANT it goes back when the code
is written, for in DORMANT it makes no access (R179, log 19). -/
def refuseArming (x : Ctx) (code : ResultCode) (id : BitVec 16) (b : Blocks) : Blocks :=
  b.modRestart fun r =>
    let r' := endReading code id r
    match r.part with
    | .dormant | .arming false => r'
    | .armed | .arming true => backToArmed x r'

/-! ### Values at an arming result -/

/-- The motion unit at an arming result (R1, R2, R4, R9). -/
def Motion.coldArmed (m : Motion) : Motion := { m with p := 0, h := 0, residue := 0, encErrors := 0, lostUnits := 0 }
def Motion.warmArmed (h : Nat) (m : Motion) : Motion := { m with p := h, h := h, residue := 0 }

/-- A station with the mount data read (R118). -/
def armedStation (m : MountRecord) : Station :=
  { Station.reset with mount := m, lift := if m.mounted then .fault .start else .lifted }

/-- The stations at an arming result, counts and last refusal apart (R98, R118). -/
def armStations (ws : List Word) (s : Stations) : Stations :=
  { s with
    image := Bank.tabulate fun i => wordAt ws i
    station := Bank.tabulate fun k => armedStation (mountRecord ws k)
    liftTimeout := mountTimeout ws
    refScreen := mountRefScreen ws
    generation := closingId (wordAt ws 95) }

/-- The zone records and the timer after an arming result (R130, R140). -/
def armOven (c : Anchor) (o : Oven) : Oven :=
  { o with
    zone := Bank.tabulate fun z =>
      if listed c z then ⟨.before, none, c.standbySetpoint, .held, 0, .run, 0⟩ else Oven.reset.zone[z]
    timerRunning := true
    dwellCount := 0
    dwellStage := 0 }

/-- The cache cleared for a warm arming: its counts and last fault stay (R79, R81). -/
def Cache.cleared (c : Cache) : Cache :=
  { Cache.reset with
    lastFault := c.lastFault, fetches := c.fetches, restarts := c.restarts, supersedes := c.supersedes,
    failures := c.failures }

/-- The cue queue at a warm arming: emptied, counts kept, a running pulse ended (R96). -/
def Cues.emptied (q : Cues) : Cues := { q with queue := [], markPulse := false }

/-- The path unit at an arming result: requests of the other requesters withdrawn, a stalled read released, the freeze
ended (R184, R185, R190). -/
def armPath (p : Path) : Path :=
  let p := ((p.withdraw .cache).withdraw .plan).withdraw .report
  { p with
    freeze := false
    host := match p.host with
      | .stalled a => .portWait a
      | h => h }

/-- The report unit at a cold arming result (R160, R170). -/
def Report.coldArmed (c : Anchor) (r : Report) : Report :=
  { Report.reset with
    full := List.replicate c.outcomeSlots false
    statusTimer := some c.statusInterval
    rewriteOwed := true
    rewriteNumber := r.rewriteNumber
    page := r.page }

/-- The report unit at a warm arming result (R160, R170). The map is filled by the reads that follow (R196). -/
def Report.warmArmed (c : Anchor) (d : SnapshotData) (r : Report) : Report :=
  { r with
    writeIndex := d.writeIndex
    full := List.replicate c.outcomeSlots false
    queue := d.queue
    recordWrite := none
    retired := BitVec.ofNat 32 (d.queue.filter (·.segment)).length
    segmentsWritten := 0
    outcomesLost := 0
    stallTimer := none
    statusTimer := some c.statusInterval
    rewriteOwed := true
    rewrite := none }

/-- The track at a cold arming, before its first admission (R45, R191). -/
def Track.coldArmed (t : Track) : Track :=
  { Track.reset with discarded := satAdd 4294967295 t.discarded t.segs.length }

/-- The due end at which a closed segment was OPEN, after the seams that it absorbed, in due order: each moves the due end
to its tail where that lies beyond (R38). A seam due past the due end so far was absorbed while the boundary was DEFERRED,
which has no due end (R26, R29). -/
def movedEnd (seamLength : Nat) (seams : List PendingSeam) (g : Segment) : Option Nat :=
  (seams.filter fun s => s.absorbedBy = some g.seq).foldl
    (fun due s => due.bind fun e => if s.due ≤ closingAt g e then some (max e (s.due + seamLength)) else none) g.plannedEnd

/-- Whether R34 truncated a restored segment, which a snapshot does not say: a SEAM segment begins at its tail, and that is
not its due end, where R37 closes it (R88, R94, log 24). -/
def endsTruncated (c : Anchor) (d : SnapshotData) (g : Segment) : Bool :=
  match g.length with
  | some n =>
    (d.segs.any fun s => decide (s.kind = .seam ∧ s.head = g.head + n)) &&
      decide (movedEnd c.seamLength d.seams g ≠ some (g.head + n))
  | none => false

/-- The track at a warm arming (R45, R195). -/
def Track.warmArmed (c : Anchor) (d : SnapshotData) (t : Track) : Track where
  segs := d.segs.map fun g => { g with truncated := endsTruncated c d g }
  boundary := d.boundary
  seams := d.seams
  debounce := d.debounce
  seqCounter := d.seqCounter
  starvedHold := d.starved
  ignoredEdges := d.ignored
  droppedSeams := d.dropped
  absorbedSeams := d.absorbed
  discarded := t.discarded
  passed := d.h

/-- The plan reader at a warm arming (R63). -/
def Plan.warmArmed (d : SnapshotData) (p : Plan) : Plan :=
  { p with
    postIndex := d.postIndex
    takeIndex := d.takeIndex
    posted := d.posted
    take := if d.staged.isSome then .staged else .idle
    result := none
    staged := d.staged }

/-! ### Arming results (R190, R191, R195, R196) -/

/-- The restart unit at a cold result: the start word, the result word, and the snapshot write that the result and the
first admission trigger (R188, R191, R197). -/
def Restart.coldArmed (c : Anchor) (code : ResultCode) (id : BitVec 16) (r : Restart) : Restart :=
  { Restart.reset with
    part := .armed
    generation := r.generation
    distanceMark := c.snapshotDistance
    work := r.work.tail ++ [.startWord, .result code id, .snapshot] }

/-- Every block at a cold result, before the first admission and the first link cycle. -/
def coldBlocks (c : Anchor) (code : ResultCode) (a : Arming) (b : Blocks) : Blocks where
  causes := Blocks.reset.causes
  track := b.track.coldArmed
  plan := .reset
  cache := .reset
  cues := .reset
  stations := armStations a.mount .reset
  oven := armOven c .reset
  field := b.field.coldArmed
  report := b.report.coldArmed c
  path := { armPath b.path with dropped := 0 }
  restart := b.restart.coldArmed c code a.id

/-- A cold arming takes effect (R191): the first STARVED BLANK is admitted at 0, and a link cycle starts. -/
def coldResult (code : ResultCode) (a : Arming) (s : State) : State :=
  let c := parseAnchor a.anchor
  let m := s.motion.coldArmed
  let b := (coldBlocks c code a s.blk).modTrack (joinTrack 0 (Segment.blank 0))
  ((s.setCfg c).setMotion m).setBlk (startCycle ⟨c, m⟩ b)

/-- The restart unit at a warm result: the outcome map, then the snapshot write (R188, R195, R197). -/
def Restart.warmArmed (x : Ctx) (d : SnapshotData) (id : BitVec 16) (r : Restart) : Restart :=
  { Restart.reset with
    part := .armed
    generation := d.generation
    distanceMark := position x.motion.h (x.motion.h + x.cfg.snapshotDistance)
    work := r.work.tail ++ [.outcomeMap, .snapshot]
    mapNext := some (0, id)
    correctedH := x.motion.h }

/-- Every block at a warm result, before its probes are placed and its claims made. -/
def warmBlocks (x : Ctx) (d : SnapshotData) (a : Arming) (b : Blocks) : Blocks where
  causes := Blocks.reset.causes
  track := b.track.warmArmed x.cfg d
  plan := b.plan.warmArmed d
  cache := b.cache.cleared
  cues := b.cues.emptied
  stations := armStations a.mount b.stations
  oven := armOven x.cfg b.oven
  field := b.field.warmArmed
  report := b.report.warmArmed x.cfg d
  path := armPath b.path
  restart := b.restart.warmArmed x d a.id

/-- The holdings of the stations in the restored track: no mark is written (R118). -/
def placeStations (x : Ctx) (b : Blocks) : Blocks :=
  screens.foldl
    (fun b k => modStation k (fun st => { st with holding := b.track.holdingAt (stationCoordinate x k) }) b) b

/-- A restored queue of four or more records raises OUTCOME_BACKLOG (R159). -/
def raiseBacklog (b : Blocks) : Blocks := if 4 ≤ b.report.queue.length then raise .outcomeBacklog 0 b else b

/-- A warm arming takes effect (R195, R196, R138). -/
def warmResult (d : SnapshotData) (a : Arming) (s : State) : State :=
  let c := parseAnchor a.anchor
  let m := s.motion.warmArmed ((d.h : Int) + c.restartCorrection).toNat
  let x : Ctx := ⟨c, m⟩
  let b := raiseBacklog (restoreProbes x (placeStations x (warmBlocks x d a s.blk)))
  ((s.setCfg c).setMotion m).setBlk (startCycle x (restoreClaims b))

/-! ### The reading of an arming (R189, R194) -/

/-- A change of the arming in progress. -/
def modArming (f : Arming → Arming) (b : Blocks) : Blocks := b.modRestart fun r => { r with arming := r.arming.map f }

/-- A burst of the anchor has returned; after the last the anchor is checked (R189). -/
def anchorRead (x : Ctx) (ws : List Word) (b : Blocks) : Blocks :=
  match b.restart.arming with
  | none => b
  | some a =>
    let all := a.anchor ++ ws
    if all.length < 64 then modArming (fun a => { a with anchor := all }) b
    else
      match anchorFault all with
      | some code => refuseArming x code a.id b
      | none => modArming (fun a => { a with anchor := all, phase := .mount }) b

/-- The start word of an anchor as read (R189). -/
def isWarm (a : Arming) : Bool := decide (wordAt a.anchor 61 = Config.warmWord)

/-- The mount window has been read: it is checked, and the start word decides cold or warm (R189, R191, R194). -/
def mountDone (a : Arming) (s : State) : State :=
  if !mountOk (parseAnchor a.anchor) a.mount then s.setBlk (refuseArming s.ctx .badMount a.id s.blk)
  else if !isWarm a then coldResult .armedCold a s
  else if s.motion.state ≠ .halted then s.setBlk (refuseArming s.ctx .refusedBusy a.id s.blk)
  else s.setBlk ((modArming (fun _ => { a with phase := .snapshot }) s.blk).modRestart fun r => { r with moved := false })

/-- A burst of the mount window has returned (R189). -/
def mountRead (ws : List Word) (s : State) : State :=
  match s.blk.restart.arming with
  | none => s
  | some a =>
    let a' := { a with mount := a.mount ++ ws }
    if a'.mount.length < 96 then s.setBlk (modArming (fun _ => a') s.blk) else mountDone a' s

/-- The snapshot has been read (R194). The moved marker is judged before the snapshot's validity (log 21). -/
def snapshotRead (ws : List Word) (s : State) : State :=
  match s.blk.restart.arming with
  | none => s
  | some a =>
    let a' := { a with snapshot := a.snapshot ++ ws }
    if !snapshotDone a'.snapshot then s.setBlk (modArming (fun _ => a') s.blk)
    else if s.blk.restart.moved then s.setBlk (refuseArming s.ctx .refusedBusy a.id s.blk)
    else if snapshotValid (parseAnchor a.anchor) a'.snapshot then warmResult (decodeSnapshot a'.snapshot) a' s
    else coldResult .armedColdTrackLost a' s

/-! ### The restart unit's other accesses (R188, R192, R193, R196) -/

/-- A result word or the start word has been written: its piece of work ends. After the last result word of an arming
refused from DORMANT, the part is DORMANT (R186, log 19). -/
def resultWritten (r : Restart) : Restart :=
  let r' := { r with work := r.work.tail }
  if r'.part = .arming false ∧ r'.arming = none ∧ r'.work = [] then { r' with part := .dormant } else r'

/-- A piece of work is a result word write. -/
def Work.isResult : Work → Bool
  | .result _ _ => true
  | .startWord | .readArming | .snapshot | .outcomeMap => false

/-- The outcome map is complete: ARMED_WARM follows the results already decided, and the snapshot write follows it
(R188, R196, log 20). Results queued behind the reading of a further arming stay there (log 54). -/
def mapDone (id : BitVec 16) (r : Restart) : Restart :=
  let rest := r.work.tail.filter fun w => w ≠ .snapshot
  { r with
    work := rest.takeWhile Work.isResult ++ [.result .armedWarm id, .snapshot] ++ rest.dropWhile Work.isResult
    mapNext := none }

/-- A read of word 0 of an outcome slot has returned (R196). -/
def mapRead (x : Ctx) (ws : List Word) (b : Blocks) : Blocks :=
  match b.restart.mapNext with
  | none => b
  | some (k, id) =>
    let b := b.modReport fun r => { r with full := r.full.set k (decide (wordAt ws 0 ≠ 0)) }
    if k + 1 < x.cfg.outcomeSlots then b.modRestart fun r => { r with mapNext := some (k + 1, id) }
    else b.modRestart (mapDone id)

/-- A burst of a snapshot write has completed. -/
def snapshotBurstDone (r : Restart) : Restart :=
  { r with writing := r.writing.map fun w => { w with rest := w.rest.tail } }

/-- The closing word of a snapshot write has completed: the generation is the new one, and a set flag begins a further
write while the part is ARMED (R192, R193). -/
def snapshotClosed (x : Ctx) (r : Restart) : Restart :=
  let g := match r.writing with
    | some w => w.generation
    | none => r.generation
  let r := { r with work := r.work.tail, writing := none, generation := g }
  if r.part = .armed ∧ r.snapshotPending then { beginSnapshot x r with snapshotPending := false } else r

/-! ### Resets (R184, R187) -/

/-- The blocks at a reset, the path unit apart. -/
def resetBlocks (p : Path) : Blocks := Blocks.reset.setPath p

/-- Power-on reset: every block at its reset value, the ports idle. Job memory is not changed. -/
def powerOn (encA encB : Bool) (s : State) : State where
  cfg := .reset
  motion := .reset encA encB
  blk := resetBlocks .reset
  mem := s.mem
  pending := s.pending
  moments := s.moments

/-- The path unit at the RESET line (R184): an access being carried completes, requests leave their slots, and a
stalled read is released. -/
def resetPath (p : Path) : Path :=
  { Path.reset with
    host := match p.host with
      | .stalled a => .portWait a
      | h => h
    readData := p.readData
    port := match p.port with
      | .internal a _ => .internal a true
      | q => q }

/-- The RESET line. -/
def lineReset (encA encB : Bool) (s : State) : State where
  cfg := .reset
  motion := .reset encA encB
  blk := resetBlocks (resetPath s.blk.path)
  mem := s.mem
  pending := s.pending
  moments := s.moments

end Sys2Proof.Machine
end

