-- ==== Sys2Proof/Machine/Motion.lean ====
section
/-! DEFINITION. The motion unit (01): the decoder, the residue, unit events, H advances and the motion state; and the
commands of the encoder, the seam detector and the part's own timers. -/

namespace Sys2Proof.Machine

/-! ### The decoder and the residue (R1, R2) -/

/-- What a change of the pair gives (R1). -/
inductive Decoded
  | none
  | forward
  | backward
  | stepError
  deriving DecidableEq, Repr

/-- The next state of the forward sequence (0,0), (1,0), (1,1), (0,1), (0,0). -/
def nextPair : Bool × Bool → Bool × Bool
  | (false, false) => (true, false)
  | (true, false) => (true, true)
  | (true, true) => (false, true)
  | (false, true) => (false, false)

/-- A change of the pair from an old to a new state (R1). -/
def decodePair (old new : Bool × Bool) : Decoded :=
  if new = old then .none
  else if new = nextPair old then .forward
  else if old = nextPair new then .backward
  else .stepError

/-- A direction of travel. -/
inductive Travel
  | fwd
  | back
  deriving DecidableEq, Repr

/-- A pulse on the residue for divisor d: the new residue, and the unit event it gives (R2). -/
def takePulse (d : Nat) (r : Int) : Travel → Int × Option Travel
  | .fwd => if r + 1 = d then (0, some .fwd) else (r + 1, none)
  | .back => if r - 1 = -(d : Int) then (0, some .back) else (r - 1, none)

/-! ### Unit events (R3 to R8, R10 to R12, R194) -/

/-- The motion state that a unit event sets (R10). -/
def Travel.state : Travel → MotionState
  | .fwd => .advancing
  | .back => .backing

/-- What a unit event does in every part state: the motion state, the stop-detect timer and the speed count (R3). -/
def eventMotion (stopDetect : Nat) (d : Travel) (m : Motion) : Motion :=
  { m with state := d.state, stopTimer := some stopDetect, speedCount := m.speedCount + 1 }

/-- How a unit event moves P and H (R4, R5). -/
inductive Move
  | advance
  | ret
  | back
  | lostForward
  | lostBackward
  deriving DecidableEq, Repr

def moveOf (m : Motion) : Travel → Move
  | .fwd => if Config.positions ≤ m.p + 1 then .lostForward else if m.h < m.p + 1 then .advance else .ret
  | .back => if m.p = 0 then .lostBackward else .back

/-- P, H and the lost-unit count after a move (R4, R5). -/
def applyMove (v : Move) (m : Motion) : Motion :=
  match v with
  | .advance => { m with p := m.p + 1, h := m.p + 1 }
  | .ret => { m with p := m.p + 1 }
  | .back => { m with p := m.p - 1 }
  | .lostForward | .lostBackward => { m with lostUnits := inc32 m.lostUnits }

/-- A unit event while a warm arming reads its snapshot sets the moved marker (R194). -/
def markMoved (b : Blocks) : Blocks :=
  match b.restart.arming with
  | some a => if a.phase = .snapshot then b.modRestart fun r => { r with moved := true } else b
  | none => b

/-- One block takes an H advance (R6), or the oven unit the entry to ADVANCING that came with it (R11, R136). -/
def takeAdvance (x : Ctx) (entering : Bool) (b : Blocks) : Taker → Blocks
  | .motion => if entering then ovenAdvancing x.cfg b else b
  | .track => trackAdvance x b
  | .station k => stationAdvance x b k
  | .cues => fireDue x b
  | .oven => ovenAdvance x b
  | .restart => restartAdvance x b

/-- One block takes a return event (R6): the stations alone, and the oven unit the entry to ADVANCING (R136). -/
def takeReturn (x : Ctx) (entering : Bool) (b : Blocks) : Taker → Blocks
  | .motion => if entering then ovenAdvancing x.cfg b else b
  | .station k => repeatBoundary x b k
  | .track | .cues | .oven | .restart => b

/-- The first occurrences of an order's takers, then those it does not name (log 8). -/
def fullOrder (order : List Taker) : List Taker :=
  (order ++ Taker.all).foldl (fun l t => if l.contains t then l else l ++ [t]) []

/-- The blocks at a unit event that moved, or was discarded, while the part tracks (R4 to R8). -/
def handMove (x : Ctx) (entering : Bool) (order : List Taker) (v : Move) (b : Blocks) : Blocks :=
  match v with
  | .advance => (fullOrder order).foldl (takeAdvance x entering) b
  | .ret => (fullOrder order).foldl (takeReturn x entering) b
  | .back => if x.cfg.backlash < x.motion.h - x.motion.p then raise .trackUncertain 0 b else b
  | .lostForward => raise .positionLimit 0 (takeAdvance x entering b .motion)
  | .lostBackward => raise .trackUncertain 0 b

/-- A unit event (R3). -/
def unitEvent (order : List Taker) (d : Travel) (s : State) : State :=
  let m := eventMotion s.cfg.stopDetect d s.motion
  let b := markMoved s.blk
  if s.blk.live then
    let v := moveOf m d
    let m' := applyMove v m
    let entering := decide (d = .fwd ∧ s.motion.state ≠ .advancing)
    (s.setMotion m').setBlk (handMove ⟨s.cfg, m'⟩ entering order v b)
  else (s.setMotion m).setBlk b

/-- The end of a step on a state: what follows at once (log 10). -/
def State.settled (w : Weigh) (s : State) : State := s.setBlk (settle s.ctx w s.blk)

/-- The unit event that new levels of the pair give (R1, R2). -/
def State.unitAt (s : State) (levels : Bool × Bool) : Option Travel :=
  match decodePair (s.motion.encA, s.motion.encB) levels with
  | .forward => (takePulse s.cfg.divisor s.motion.residue .fwd).2
  | .backward => (takePulse s.cfg.divisor s.motion.residue .back).2
  | .none | .stepError => none

/-- The event of a command takes place in a state, and its step makes a grant decision where the memory port is free. A
completion is none at a free port; the others make no request. -/
def State.decides (s : State) : Instr → Bool
  | .encoderPulse encA encB _ => (s.unitAt (encA, encB)).isSome
  | .stopDetectExpiry => s.motion.stopTimer.isSome
  | .seamEdge rising => s.blk.live && decide (rising ≠ s.cfg.seamFalling)
  | .liftTimerExpiry k => (s.blk.stationOf k).liftTimer.isSome
  | .accountingTimerExpiry => s.blk.oven.timerRunning
  | .cycleTimerExpiry => s.blk.field.cycleTimer.isSome
  | .exchangeQuietReached => (s.blk.field.inPhase .quiet).isSome && !s.blk.field.lineDriven
  | .quietWaitTimeout _ => (s.blk.field.inPhase .quiet).isSome
  | .commandFrameSent => s.blk.field.lineDriven
  | .replyFirstCharacter | .replyTimerExpiry _ => (s.blk.field.inPhase .awaiting).isSome
  | .frameClosed _ _ _ => s.blk.live && !s.blk.field.lineDriven
  | .stallTimerExpiry => s.blk.report.stallTimer.isSome
  | .statusTimerExpiry => s.blk.report.statusTimer.isSome
  | .hostAccessPresented a => a.wf && decide (s.blk.path.host = .empty)
  | .speedIntervalExpiry | .planWrite _ | .planReadReturned _ | .freeingWriteComplete _ | .settingBurstReturned _
  | .settingsWrite _ | .markPulseExpiry | .mountWrite _ | .remountRequest _ | .trim _ | .recordBurstComplete _
  | .recordWord0Complete _ | .outcomeSlotFree _ | .statusBurstComplete _ | .acknowledge _ | .pageSelect _
  | .hostWordComplete _ | .snapshotWindowWrite _ | .powerOnReset _ _ | .resetLine _ _ | .armingRequest _
  | .resultWordWritten _ | .anchorBurstReturned _ | .mountBurstReturned _ | .snapshotReadReturned _
  | .outcomeMapReadReturned _ | .snapshotBurstComplete _ | .snapshotClosingComplete _ => false

/-- The next command's event comes at the moment of this step: the sender says so, and the event takes place (log 9). -/
def State.joined (s : State) : Bool :=
  s.moments.headD false &&
    match s.pending with
    | c :: _ => s.decides c
    | [] => false

/-- The end of a step that a grant decision can end, with the requests that were there before it (R182, log 9). It uses
one entry of `moments`. -/
def State.decided (pre : Requests) (decision : Decision) (s : State) : State :=
  (s.settled (.of pre s.joined decision)).setMoments s.moments.tail

/-- A pulse (R2). -/
def pulse (order : List Taker) (d : Travel) (s : State) : State :=
  let r := takePulse s.cfg.divisor s.motion.residue d
  let s := s.setMotion { s.motion with residue := r.1 }
  match r.2 with
  | some e => (unitEvent order e s).decided s.blk.path.requests .withNew
  | none => s

/-- ENCODER_PULSE (R1): the pair takes new levels. -/
def execEncoderPulse (encA encB : Bool) (order : List Taker) (s : State) : Host.Outcome State Fault Refusal :=
  let m := { s.motion with encA := encA, encB := encB }
  match decodePair (s.motion.encA, s.motion.encB) (encA, encB) with
  | .none => .next s
  | .forward => .next (pulse order .fwd (s.setMotion m))
  | .backward => .next (pulse order .back (s.setMotion m))
  | .stepError => .next (s.setMotion { m with encErrors := inc16 m.encErrors })

/-- STOP_DETECT_EXPIRY (R10, R11): HALTED, handed to the restart unit as a snapshot trigger. -/
def execStopDetectExpiry (s : State) : Host.Outcome State Fault Refusal :=
  match s.motion.stopTimer with
  | none => .next s
  | some _ =>
    let s := s.setMotion { s.motion with state := .halted, stopTimer := none }
    .next ((s.setBlk (trigger s.ctx s.blk)).decided s.blk.path.requests .withNew)

/-- SPEED_INTERVAL_EXPIRY (R12). -/
def execSpeedIntervalExpiry (s : State) : Host.Outcome State Fault Refusal :=
  .next (s.setMotion { s.motion with speed := min 65535 s.motion.speedCount, speedCount := 0 })

/-- A step of the part that changes its blocks alone, then what follows at once. -/
def blockStep (f : Ctx → Blocks → Blocks) (s : State) : State :=
  (s.setBlk (f s.ctx s.blk)).decided s.blk.path.requests .withNew

/-- SEAM_EDGE (R32): the active edge, while the part tracks. -/
def execSeamEdge (rising : Bool) (s : State) : Host.Outcome State Fault Refusal :=
  if s.blk.live ∧ rising ≠ s.cfg.seamFalling then .next (blockStep activeEdge s) else .next s

/-- MARK_PULSE_EXPIRY (R93): the 20 ms have passed. -/
def execMarkPulseExpiry (s : State) : Host.Outcome State Fault Refusal :=
  .next (s.setBlk (s.blk.modCues fun q => { q with markPulse := false }))

/-- LIFT_TIMER_EXPIRY (R106): the lift timer of a screen, where it runs. -/
def execLiftTimerExpiry (k : Fin 16) (s : State) : Host.Outcome State Fault Refusal :=
  match (s.blk.stationOf k).liftTimer with
  | none => .next s
  | some _ => .next (blockStep (fun x b => liftExpiry x k b) s)

/-- ACCOUNTING_TIMER_EXPIRY (R130): credits, then the dwell monitor. -/
def execAccountingTimerExpiry (s : State) : Host.Outcome State Fault Refusal :=
  if s.blk.oven.timerRunning then .next (blockStep accountingTick s) else .next s

end Sys2Proof.Machine
end

