-- ==== Sys2Proof/Machine/HostPort.lean ====
section
/-! DEFINITION. The host port (10): taking an access, the words it carries, and the commands of the host and of the stall
timer. -/

namespace Sys2Proof.Machine

/-! ### Taking an access (R163, R167, R172) -/

/-- The words' windows of an access, in order. -/
def accessWindows (x : Ctx) (b : Blocks) (a : HostAccess) : List (Window × Nat) :=
  (List.range a.count).map fun i => windowOf x b (hostWordAt a i)

/-- The access is a read. -/
def accessReads : HostAccess → Bool
  | .read _ _ => true
  | .write _ _ => false

/-- The access is a read whose first word is word 0 of the status block (R167). -/
def startsFreeze (ws : List (Window × Nat)) (a : HostAccess) : Bool :=
  accessReads a && decide (ws.head? = some (.status, 0))

/-- The access is a read that includes word 63 of the status block, or touches a word outside the block (R167). A write
touches the words it presents, empty write words among them (log 58). -/
def endsFreeze (ws : List (Window × Nat)) (a : HostAccess) : Bool :=
  (accessReads a && ws.contains (.status, 63)) || ws.any fun w => decide (w.1 ≠ .status)

/-- The last burst of a rewrite is being carried: it completes under a freeze (R167, log 33). -/
def lastBurstCarried (b : Blocks) : Bool :=
  match b.path.port, b.report.rewrite with
  | .internal a false, some [_] => decide (a.kind = .statusBurst)
  | _, _ => false

/-- The status burst that waits in the report unit's slot is withdrawn. -/
def withdrawStatus (p : Path) : Path :=
  match p.slot .report with
  | some a => if a.kind = .statusBurst then p.withdraw .report else p
  | none => p

/-- The freeze comes into force: a rewrite in progress is abandoned and owed again, unless its last burst is being
carried (R167, log 33). -/
def beginFreeze (b : Blocks) : Blocks :=
  if b.path.freeze then b
  else
    let b := if b.report.rewrite.isSome && !lastBurstCarried b then
        (b.modReport fun r => { r with rewrite := none, rewriteOwed := true }).modPath withdrawStatus
      else b
    b.modPath fun p => { p with freeze := true }

/-- The judgement of the freeze at the taking of an access (R167). -/
def judgeFreeze (x : Ctx) (a : HostAccess) (b : Blocks) : Blocks :=
  let ws := accessWindows x b a
  if startsFreeze ws a then beginFreeze b
  else if endsFreeze ws a then b.modPath fun p => { p with freeze := false }
  else b

/-- The slot of the outcome ring whose word 0 is a read's first word. -/
def readsSlot (ws : List (Window × Nat)) (a : HostAccess) : Option Nat :=
  match accessReads a, ws.head? with
  | true, some (.outcome, off) => if off % 32 = 0 then some (off / 32) else none
  | _, _ => none

/-- A slot counts as full for the stall judgement: full in the map, or not yet read at a warm arming (R196). -/
def countsFull (b : Blocks) (k : Nat) : Bool :=
  b.report.isFull k || match b.restart.mapNext with
    | some (n, _) => decide (n ≤ k)
    | none => false

/-- The stall judgement (R163). -/
def stalls (x : Ctx) (b : Blocks) (a : HostAccess) : Bool :=
  match readsSlot (accessWindows x b a) a with
  | some k =>
    b.live && decide (x.cfg.stallLimit ≠ 0 ∧ k = b.report.writeIndex ∧ b.report.queue = []) && !countsFull b k
  | none => false

/-- The access waits for its grant, or is stalled with the stall timer started (R163, R172). -/
def holdAccess (x : Ctx) (a : HostAccess) (b : Blocks) : Blocks :=
  if stalls x b a then
    (b.modReport fun r =>
      { r with stallTimer := some x.cfg.stallLimit, stallsBegun := inc16 r.stallsBegun }).modPath fun p =>
        { p with host := .stalled a }
  else b.modPath fun p => { p with host := .portWait a }

/-- The port takes an access (R172): the freeze is judged, then the stall. -/
def takeAccess (x : Ctx) (a : HostAccess) (b : Blocks) : Blocks := holdAccess x a (judgeFreeze x a b)

/-- HOST_ACCESS_PRESENTED (R172). The port takes an access only while it is empty (log 3). -/
def execHostAccessPresented (a : HostAccess) (s : State) : Host.Outcome State Fault Refusal :=
  if !a.wf then .fault .notAnAccess
  else if s.blk.path.host = .empty then .next (blockStep (fun x b => takeAccess x a b) s)
  else .next s

/-! ### Words carried (R173, R175, R176) -/

/-- The classes of a completed word: one for each command that a word's completion is. -/
inductive WordClass
  | plan | settings | mount | remount | trim | slotFree | acknowledge | pageSelect | snapshotDrop | arming | plain
  deriving DecidableEq, Repr

/-- A full-word write of a nonzero value. -/
def fullNonzero (w : WriteWord) : Bool := decide (w.enables = 0xF#4 ∧ w.value ≠ 0)

/-- A full-word zero write to word 0 of an outcome slot that is full and, at a warm arming, has been read (R162,
R196). -/
def freesSlot (b : Blocks) (off : Nat) (w : WriteWord) : Bool :=
  decide (off % 32 = 0 ∧ w.enables = 0xF#4 ∧ w.value = 0) && b.report.isFull (off / 32) &&
    match b.restart.mapNext with
    | some (n, _) => decide (off / 32 < n)
    | none => true

/-- The class of a non-empty word that was not dropped, by its window (R165, R168, R174, R178). -/
def classOf (b : Blocks) (w : WriteWord) : Window × Nat → WordClass
  | (.plan, _) => .plan
  | (.settings, _) => .settings
  | (.mount, off) =>
    if off = 95 ∧ fullNonzero w then .remount
    else if off < 64 ∧ off % 4 = 3 ∧ w.enables = 0xF#4 then .trim
    else .mount
  | (.outcome, off) => if freesSlot b off w then .slotFree else .plain
  | (.status, off) =>
    if off = 56 ∧ fullNonzero w then .acknowledge
    else if off = 57 ∧ w.enables = 0xF#4 ∧ w.value.toNat ≤ 12 then .pageSelect
    else .plain
  | (.anchor, off) => if off = 63 ∧ fullNonzero w then .arming else .plain
  | (.snapshot, _) => .plain
  | (.outside, _) => .plain

/-- The word of the host access that the memory port carries: its access, index and judgement. -/
structure CarriedWord where
  access : HostAccess
  index  : Nat
  judged : WordJudgement
  deriving DecidableEq, Repr

def Path.carried (p : Path) : Option CarriedWord :=
  match p.host with
  | .carrying a i j => some ⟨a, i, j⟩
  | .empty | .stalled _ | .portWait _ => none

def CarriedWord.addr (w : CarriedWord) : Nat := hostWordAt w.access w.index
def CarriedWord.word (w : CarriedWord) : Option WriteWord := hostWriteWord w.access w.index

/-- The window and offset of a carried word. -/
def CarriedWord.place (x : Ctx) (b : Blocks) (w : CarriedWord) : Window × Nat := windowOf x b w.addr

/-- The class of a carried word. -/
def wordClass (x : Ctx) (b : Blocks) (w : CarriedWord) : WordClass :=
  match w.judged, w.word with
  | .dropPlan _, _ => .plan
  | .dropSnapshot, _ => .snapshotDrop
  | .pass, none => .plain
  | .pass, some v => if v.enables = 0 then .plain else classOf b v (w.place x b)

/-- Job memory after a carried word: a dropped word is carried with no byte enables (R175, R176). -/
def carryWord (w : CarriedWord) (m : Memory) : Memory :=
  match w.judged, w.word with
  | .pass, some v => m.writeWord w.addr v.enables v.value
  | _, _ => m

/-- The word that a read returns to the processor. -/
def readWordOf (w : CarriedWord) (m : Memory) : List Word := if accessReads w.access then [m.readWord w.addr] else []

/-- The next word of the access is judged and carried, or the access completes (R172, R175). -/
def nextWord (x : Ctx) (w : CarriedWord) (b : Blocks) : Blocks :=
  if w.index + 1 < w.access.count then
    b.modPath fun p => { p with host := .carrying w.access (w.index + 1) (judgeWord x b w.access (w.index + 1)) }
  else b.modPath fun p => { p with host := .empty, port := .free }

/-- A dropped word is counted (R176). -/
def countDrop (w : CarriedWord) (b : Blocks) : Blocks :=
  if w.judged = .pass then b else b.modPath fun p => { p with dropped := inc32 p.dropped }

/-- The completion of the carried word, where its class is the command's own (log 3): memory, then the owning block's
taking of it, then the next word or the end of the access. -/
def completeWord (c : WordClass) (decision : Decision) (effect : Ctx → CarriedWord → Blocks → Blocks) (s : State) : State :=
  match s.blk.path.carried with
  | none => s
  | some w =>
    if wordClass s.ctx s.blk w = c then
      let pre := s.blk.path.requests
      let got := readWordOf w s.mem
      let b := s.blk.modPath fun p => { p with readData := p.readData ++ got }
      let b := nextWord s.ctx w (effect s.ctx w (countDrop w b))
      ((s.setMem (carryWord w s.mem)).setBlk b).decided pre decision
    else s

/-- A word with no behaviour of its own has no effect. -/
def noEffect (_ : Ctx) (_ : CarriedWord) (b : Blocks) : Blocks := b

/-- PLAN_WRITE (R49): the word is dropped, judged as a closing word, or passed. -/
def planEffect (x : Ctx) (w : CarriedWord) (b : Blocks) : Blocks :=
  match w.judged, w.word with
  | .dropPlan slot, _ => planDropped slot b
  | _, some v => planWord x (w.place x b).2 v b
  | _, none => b

def execPlanWrite (decision : Decision) (s : State) : Host.Outcome State Fault Refusal :=
  .next (completeWord .plan decision planEffect s)

/-- SETTINGS_WRITE (R64): the write is handed to the setting cache with its record number. -/
def settingsEffect (x : Ctx) (w : CarriedWord) (b : Blocks) : Blocks := recordWritten x ((w.place x b).2 / 64) b

def execSettingsWrite (decision : Decision) (s : State) : Host.Outcome State Fault Refusal :=
  .next (completeWord .settings decision settingsEffect s)

/-- MOUNT_WRITE (R98): the word is applied to the mount image. -/
def mountEffect (x : Ctx) (w : CarriedWord) (b : Blocks) : Blocks :=
  match w.word with
  | some v => applyImage (w.place x b).2 v b
  | none => b

def execMountWrite (decision : Decision) (s : State) : Host.Outcome State Fault Refusal :=
  .next (completeWord .mount decision mountEffect s)

/-- An accepted remount handed to the cache, the stations and the field line (R76, R100, R144). -/
def acceptRemount (x : Ctx) (generation : BitVec 16) (b : Blocks) : Blocks :=
  let old := b.stations
  let b := (b.modStations (remountStations generation)).modField (remountModules old)
  evaluateWants x (supersedeUnmounted (unmounts old) b)

/-- A remount request judged (R99). -/
def judgeRemount (x : Ctx) (close : Word) (b : Blocks) : Blocks :=
  match remountFault x close b.stations with
  | some f => refuseMount f.1 f.2 (b.modStations fun s => { s with refusedRemounts := inc16 s.refusedRemounts })
  | none => acceptRemount x (closingId close) b

/-- REMOUNT_REQUEST (R98, R99): the closing word enters the image, and the request is judged on it. -/
def remountEffect (x : Ctx) (w : CarriedWord) (b : Blocks) : Blocks :=
  match w.word with
  | some v => judgeRemount x v.value (mountEffect x w b)
  | none => b

def execRemountRequest (decision : Decision) (s : State) : Host.Outcome State Fault Refusal :=
  .next (completeWord .remount decision remountEffect s)

/-- TRIM (R98, R111): the trim word enters the image, and the trim is judged. -/
def trimEffect (x : Ctx) (w : CarriedWord) (b : Blocks) : Blocks :=
  match w.word, screenOf ((w.place x b).2 / 4 + 1) with
  | some v, some k => takeTrim k v.value (mountEffect x w b)
  | _, _ => b

def execTrim (decision : Decision) (s : State) : Host.Outcome State Fault Refusal :=
  .next (completeWord .trim decision trimEffect s)

/-- OUTCOME_SLOT_FREE (R162): the slot becomes free in the map. -/
def slotFreeEffect (x : Ctx) (w : CarriedWord) (b : Blocks) : Blocks :=
  b.modReport fun r => { r with full := r.full.set ((w.place x b).2 / 32) false }

def execOutcomeSlotFree (decision : Decision) (s : State) : Host.Outcome State Fault Refusal :=
  .next (completeWord .slotFree decision slotFreeEffect s)

/-- ACKNOWLEDGE (R168): one clear claim, counted. -/
def acknowledgeEffect (x : Ctx) (w : CarriedWord) (b : Blocks) : Blocks :=
  match w.word with
  | some v => clearClaim x v.value (b.modReport fun r => { r with acks := inc16 r.acks })
  | none => b

def execAcknowledge (decision : Decision) (s : State) : Host.Outcome State Fault Refusal :=
  .next (completeWord .acknowledge decision acknowledgeEffect s)

/-- PAGE_SELECT (R165): the page in force, and a rewrite owed. -/
def pageEffect (_ : Ctx) (w : CarriedWord) (b : Blocks) : Blocks :=
  match w.word with
  | some v => b.modReport fun r => { r with page := v.value.toNat, rewriteOwed := true }
  | none => b

def execPageSelect (decision : Decision) (s : State) : Host.Outcome State Fault Refusal :=
  .next (completeWord .pageSelect decision pageEffect s)

/-- SNAPSHOT_WINDOW_WRITE (R177): the word is dropped and counted, and nothing is raised. -/
def execSnapshotWindowWrite (decision : Decision) (s : State) : Host.Outcome State Fault Refusal :=
  .next (completeWord .snapshotDrop decision noEffect s)

/-- HOST_WORD_COMPLETE (R175): a word with no behaviour of its own. -/
def execHostWordComplete (decision : Decision) (s : State) : Host.Outcome State Fault Refusal :=
  .next (completeWord .plain decision noEffect s)

/-- ARMING_REQUEST (R188): a full-word nonzero write to anchor word 63. -/
def armingEffect (x : Ctx) (w : CarriedWord) (b : Blocks) : Blocks :=
  match w.word with
  | some v => requestArming x (closingId v.value) b
  | none => b

def execArmingRequest (decision : Decision) (s : State) : Host.Outcome State Fault Refusal :=
  .next (completeWord .arming decision armingEffect s)

/-! ### The stall timer (R163) -/

/-- The stall ends: the read waits for its grant. -/
def endStall (p : Path) : Path :=
  match p.host with
  | .stalled a => { p with host := .portWait a }
  | .empty | .portWait _ | .carrying _ _ _ => p

/-- STALL_TIMER_EXPIRY (R163). -/
def execStallTimerExpiry (s : State) : Host.Outcome State Fault Refusal :=
  match s.blk.report.stallTimer with
  | none => .next s
  | some _ =>
    .next (blockStep (fun _ b =>
      (b.modReport fun r => { r with stallTimer := none, stallsExpired := inc16 r.stallsExpired }).modPath endStall) s)

end Sys2Proof.Machine
end

