-- ==== Sys2Proof/Machine/Internal.lean ====
section
/-! DEFINITION. The commands that are completions of the part's own accesses (R173, R181), and of the status timer. -/

namespace Sys2Proof.Machine

/-- The port becomes free. -/
def freePort (b : Blocks) : Blocks := b.modPath fun p => { p with port := .free }

/-- The completion of an internal access of one of some kinds, where the port carries one (log 3): its words reach
memory, the requester takes its data unless a reset abandoned it, and what follows at once. -/
def completeAccess (kinds : List AccessKind) (decision : Decision) (effect : List Word → State → State) (s : State) : State :=
  match s.blk.path.port with
  | .internal a abandoned =>
    if kinds.contains a.kind then
      let pre := s.blk.path.requests
      let s' := (s.setMem (s.mem.carry a)).setBlk (freePort s.blk)
      (if abandoned then s' else effect (s.mem.readWords a.addr a.count) s').decided pre decision
    else s
  | .free | .host => s

/-- An effect on the blocks alone. -/
def onBlocks (f : Ctx → List Word → Blocks → Blocks) (ws : List Word) (s : State) : State := s.setBlk (f s.ctx ws s.blk)

/-- PLAN_READ_RETURNED (R55). -/
def execPlanReadReturned (decision : Decision) (s : State) : Host.Outcome State Fault Refusal :=
  .next (completeAccess [.planRead] decision (onBlocks planReadDone) s)

/-- FREEING_WRITE_COMPLETE (R56). -/
def execFreeingWriteComplete (decision : Decision) (s : State) : Host.Outcome State Fault Refusal :=
  .next (completeAccess [.freeingWrite] decision (onBlocks fun x _ b => freeingDone x b) s)

/-- SETTING_BURST_RETURNED (R73). -/
def execSettingBurstReturned (decision : Decision) (s : State) : Host.Outcome State Fault Refusal :=
  .next (completeAccess [.settingRead] decision (onBlocks fetchBurst) s)

/-- A burst of a record write has completed (R161). -/
def recordBurstDone (b : Blocks) : Blocks :=
  b.modReport fun r => { r with recordWrite := r.recordWrite.map List.tail }

/-- RECORD_BURST_COMPLETE (R161). -/
def execRecordBurstComplete (decision : Decision) (s : State) : Host.Outcome State Fault Refusal :=
  .next (completeAccess [.recordBurst] decision (onBlocks fun _ _ b => recordBurstDone b) s)

/-- The written count of a record's kind (R160). -/
def countWritten (segment : Bool) (r : Report) : Report :=
  if segment then { r with segmentsWritten := r.segmentsWritten + 1 }
  else { r with rejectionsWritten := r.rejectionsWritten + 1 }

/-- A read stalled on the slot just written is released (R163). -/
def fillStall (b : Blocks) : Blocks :=
  match b.path.host with
  | .stalled _ =>
    (b.modReport fun r => { r with stallTimer := none, stallsFilled := inc16 r.stallsFilled }).modPath endStall
  | .empty | .portWait _ | .carrying _ _ _ => b

/-- The word 0 write has completed: what happens together (R161). -/
def recordDone (x : Ctx) (b : Blocks) : Blocks :=
  match b.report.queue with
  | [] => b
  | rec :: rest =>
    fillStall (b.modReport fun r =>
      countWritten rec.segment
        { r with
          full := r.full.set r.writeIndex true
          queue := rest
          recordWrite := none
          writeIndex := nextSlot x.cfg.outcomeSlots r.writeIndex })

/-- RECORD_WORD0_COMPLETE (R161). -/
def execRecordWord0Complete (decision : Decision) (s : State) : Host.Outcome State Fault Refusal :=
  .next (completeAccess [.recordWord0] decision (onBlocks fun x _ b => recordDone x b) s)

/-- The bursts of a rewrite that are left after one has completed. -/
def restOfRewrite : Option (List Burst) → Option (List Burst)
  | some (_ :: u :: rest) => some (u :: rest)
  | some [_] | some [] | none => none

/-- STATUS_BURST_COMPLETE (R166). -/
def execStatusBurstComplete (decision : Decision) (s : State) : Host.Outcome State Fault Refusal :=
  .next (completeAccess [.statusBurst] decision
    (onBlocks fun _ _ b => b.modReport fun r => { r with rewrite := restOfRewrite r.rewrite }) s)

/-- STATUS_TIMER_EXPIRY (R166): the timer restarts itself, and a rewrite is owed. -/
def execStatusTimerExpiry (s : State) : Host.Outcome State Fault Refusal :=
  match s.blk.report.statusTimer with
  | none => .next s
  | some _ =>
    .next (blockStep (fun x b => b.modReport fun r =>
      { r with statusTimer := some x.cfg.statusInterval, rewriteOwed := true }) s)

/-- RESULT_WORD_WRITTEN (R188): a result word, or the start word (R191). -/
def execResultWordWritten (decision : Decision) (s : State) : Host.Outcome State Fault Refusal :=
  .next (completeAccess [.resultWrite, .startWrite] decision (onBlocks fun _ _ b => b.modRestart resultWritten) s)

/-- ANCHOR_BURST_RETURNED (R189). -/
def execAnchorBurstReturned (decision : Decision) (s : State) : Host.Outcome State Fault Refusal :=
  .next (completeAccess [.anchorRead] decision (onBlocks anchorRead) s)

/-- MOUNT_BURST_RETURNED (R189, R190, R191, R194). -/
def execMountBurstReturned (decision : Decision) (s : State) : Host.Outcome State Fault Refusal :=
  .next (completeAccess [.mountRead] decision mountRead s)

/-- SNAPSHOT_READ_RETURNED (R194, R195). -/
def execSnapshotReadReturned (decision : Decision) (s : State) : Host.Outcome State Fault Refusal :=
  .next (completeAccess [.snapshotRead] decision snapshotRead s)

/-- OUTCOME_MAP_READ_RETURNED (R196). -/
def execOutcomeMapReadReturned (decision : Decision) (s : State) : Host.Outcome State Fault Refusal :=
  .next (completeAccess [.mapRead] decision (onBlocks mapRead) s)

/-- SNAPSHOT_BURST_COMPLETE (R192). -/
def execSnapshotBurstComplete (decision : Decision) (s : State) : Host.Outcome State Fault Refusal :=
  .next (completeAccess [.snapshotWrite] decision (onBlocks fun _ _ b => b.modRestart snapshotBurstDone) s)

/-- SNAPSHOT_CLOSING_COMPLETE (R192, R193). -/
def execSnapshotClosingComplete (decision : Decision) (s : State) : Host.Outcome State Fault Refusal :=
  .next (completeAccess [.snapshotClosing] decision (onBlocks fun x _ b => b.modRestart (snapshotClosed x)) s)

/-! ### The resets (R187) -/

/-- POWER_ON_RESET (R187). -/
def execPowerOnReset (encA encB : Bool) (s : State) : Host.Outcome State Fault Refusal := .next (powerOn encA encB s)

/-- RESET_LINE (R184, R187): a host access that waits is granted at the next decision. -/
def execResetLine (encA encB : Bool) (s : State) : Host.Outcome State Fault Refusal :=
  .next ((lineReset encA encB s).settled .all)

end Sys2Proof.Machine
end

