-- ==== Sys2Proof/Machine/Line.lean ====
section
/-! DEFINITION. The commands of the field line (08). -/

namespace Sys2Proof.Machine

/-- CYCLE_TIMER_EXPIRY (R143). -/
def execCycleTimerExpiry (s : State) : Host.Outcome State Fault Refusal :=
  match s.blk.field.cycleTimer with
  | none => .next s
  | some _ => .next (blockStep cycleExpiry s)

/-- EXCHANGE_QUIET_REACHED (R145, R146): the line has been quiet for 5 character times. It is not while the part drives
it. -/
def execExchangeQuietReached (s : State) : Host.Outcome State Fault Refusal :=
  match s.blk.field.inPhase .quiet, s.blk.field.lineDriven with
  | some e, false => .next (blockStep (fun x b => sendCommand x e b) s)
  | _, _ => .next s

/-- QUIET_WAIT_TIMEOUT (R145): LINE_BUSY. -/
def execQuietWaitTimeout (elapsed : Nat) (s : State) : Host.Outcome State Fault Refusal :=
  match s.blk.field.inPhase .quiet with
  | none => .next s
  | some e => .next (blockStep (fun x b => missExchange x e .lineBusy elapsed b) s)

/-- COMMAND_FRAME_SENT (R141, R145). -/
def execCommandFrameSent (s : State) : Host.Outcome State Fault Refusal :=
  if s.blk.field.lineDriven then .next (blockStep commandSent s) else .next s

/-- The reply's first character stops the reply timer (R145). -/
def firstCharacter (e : Exchange) (b : Blocks) : Blocks :=
  b.modField fun f => { f with replyTimer := none, exchange := some { e with phase := .receiving } }

/-- REPLY_FIRST_CHARACTER (R145). -/
def execReplyFirstCharacter (s : State) : Host.Outcome State Fault Refusal :=
  match s.blk.field.inPhase .awaiting with
  | none => .next s
  | some e => .next (blockStep (fun _ b => firstCharacter e b) s)

/-- REPLY_TIMER_EXPIRY (R145): NO_REPLY. -/
def execReplyTimerExpiry (elapsed : Nat) (s : State) : Host.Outcome State Fault Refusal :=
  match s.blk.field.inPhase .awaiting with
  | none => .next s
  | some e =>
    .next (blockStep (fun x b =>
      missExchange x e .noReply elapsed (b.modField fun f => { f with replyTimer := none })) s)

/-- A frame that no exchange waits for (R142). -/
def lateFrame (b : Blocks) : Blocks := b.modField fun f => { f with lateFrames := inc16 f.lateFrames }

/-- FRAME_CLOSED (R142): the frame is the reply of the exchange in progress, or a late frame. The receiver does not
listen while the part drives the line, nor while the part is idle. -/
def execFrameClosed (bytes : List Byte) (framing : Bool) (elapsed : Nat) (s : State) :
    Host.Outcome State Fault Refusal :=
  if s.blk.live ∧ ¬ s.blk.field.lineDriven then
    match s.blk.field.inPhase .receiving with
    | some e => .next (blockStep (fun x b => judgeFrame x e bytes framing elapsed b) s)
    | none => .next (blockStep (fun _ b => lateFrame b) s)
  else .next s

end Sys2Proof.Machine
end

