-- ==== Sys2Proof/Machine/Dispatch.lean ====
section
/-! DEFINITION. The meaning of each command, one arm for each constructor of Instr. -/

namespace Sys2Proof.Machine

def exec (i : Instr) (s : State) : Host.Outcome State Fault Refusal :=
  match i with
  | .encoderPulse encA encB order => Sys2Proof.Machine.execEncoderPulse encA encB order s
  | .stopDetectExpiry => Sys2Proof.Machine.execStopDetectExpiry s
  | .speedIntervalExpiry => Sys2Proof.Machine.execSpeedIntervalExpiry s
  | .seamEdge rising => Sys2Proof.Machine.execSeamEdge rising s
  | .planWrite decision => Sys2Proof.Machine.execPlanWrite decision s
  | .planReadReturned decision => Sys2Proof.Machine.execPlanReadReturned decision s
  | .freeingWriteComplete decision => Sys2Proof.Machine.execFreeingWriteComplete decision s
  | .settingBurstReturned decision => Sys2Proof.Machine.execSettingBurstReturned decision s
  | .settingsWrite decision => Sys2Proof.Machine.execSettingsWrite decision s
  | .markPulseExpiry => Sys2Proof.Machine.execMarkPulseExpiry s
  | .mountWrite decision => Sys2Proof.Machine.execMountWrite decision s
  | .remountRequest decision => Sys2Proof.Machine.execRemountRequest decision s
  | .trim decision => Sys2Proof.Machine.execTrim decision s
  | .liftTimerExpiry screen => Sys2Proof.Machine.execLiftTimerExpiry screen s
  | .accountingTimerExpiry => Sys2Proof.Machine.execAccountingTimerExpiry s
  | .cycleTimerExpiry => Sys2Proof.Machine.execCycleTimerExpiry s
  | .exchangeQuietReached => Sys2Proof.Machine.execExchangeQuietReached s
  | .quietWaitTimeout elapsed => Sys2Proof.Machine.execQuietWaitTimeout elapsed s
  | .commandFrameSent => Sys2Proof.Machine.execCommandFrameSent s
  | .replyFirstCharacter => Sys2Proof.Machine.execReplyFirstCharacter s
  | .replyTimerExpiry elapsed => Sys2Proof.Machine.execReplyTimerExpiry elapsed s
  | .frameClosed bytes framing elapsed => Sys2Proof.Machine.execFrameClosed bytes framing elapsed s
  | .recordBurstComplete decision => Sys2Proof.Machine.execRecordBurstComplete decision s
  | .recordWord0Complete decision => Sys2Proof.Machine.execRecordWord0Complete decision s
  | .outcomeSlotFree decision => Sys2Proof.Machine.execOutcomeSlotFree decision s
  | .stallTimerExpiry => Sys2Proof.Machine.execStallTimerExpiry s
  | .statusTimerExpiry => Sys2Proof.Machine.execStatusTimerExpiry s
  | .statusBurstComplete decision => Sys2Proof.Machine.execStatusBurstComplete decision s
  | .acknowledge decision => Sys2Proof.Machine.execAcknowledge decision s
  | .pageSelect decision => Sys2Proof.Machine.execPageSelect decision s
  | .hostAccessPresented access => Sys2Proof.Machine.execHostAccessPresented access s
  | .hostWordComplete decision => Sys2Proof.Machine.execHostWordComplete decision s
  | .snapshotWindowWrite decision => Sys2Proof.Machine.execSnapshotWindowWrite decision s
  | .powerOnReset encA encB => Sys2Proof.Machine.execPowerOnReset encA encB s
  | .resetLine encA encB => Sys2Proof.Machine.execResetLine encA encB s
  | .armingRequest decision => Sys2Proof.Machine.execArmingRequest decision s
  | .resultWordWritten decision => Sys2Proof.Machine.execResultWordWritten decision s
  | .anchorBurstReturned decision => Sys2Proof.Machine.execAnchorBurstReturned decision s
  | .mountBurstReturned decision => Sys2Proof.Machine.execMountBurstReturned decision s
  | .snapshotReadReturned decision => Sys2Proof.Machine.execSnapshotReadReturned decision s
  | .outcomeMapReadReturned decision => Sys2Proof.Machine.execOutcomeMapReadReturned decision s
  | .snapshotBurstComplete decision => Sys2Proof.Machine.execSnapshotBurstComplete decision s
  | .snapshotClosingComplete decision => Sys2Proof.Machine.execSnapshotClosingComplete decision s

end Sys2Proof.Machine
end

