-- ==== Sys2Proof/Safety.lean ====
section
/-! DEFINITION. What statements about the block are made of: that a command answers, that a property is kept by every
step, what the end of a step may begin, and that bytes of memory stay. -/

namespace Sys2Proof

open Machine

/-- The command does not stop the machine in a state. -/
def Answers (c : Instr) (s : State) : Prop := ∃ t, exec c s = .next t

/-- A property of states that every step keeps. -/
def Kept (Inv : State → Prop) : Prop := ∀ s t, Inv s → step s = .next t → Inv t

/-- The plan reader after the end of a step: as it was, or with a take begun (R54). -/
def PlanFollows (u t : Plan) : Prop :=
  t = u ∨ (u.take = .idle ∧ 0 < u.posted ∧ u.staged = none ∧ t = { u with take := .reading })

/-- The report unit after the end of a step: as it was, but for a record write and a rewrite begun where none was in
progress (R161, R166). -/
def ReportFollows (u t : Report) : Prop :=
  t = { u with
    recordWrite := t.recordWrite, overwritten := t.overwritten, rewriteOwed := t.rewriteOwed,
    rewriteNumber := t.rewriteNumber, rewrite := t.rewrite } ∧
  (u.recordWrite.isSome → t.recordWrite = u.recordWrite ∧ t.overwritten = u.overwritten) ∧
  (u.rewrite.isSome → t.rewrite = u.rewrite ∧ t.rewriteNumber = u.rewriteNumber ∧ t.rewriteOwed = u.rewriteOwed) ∧
  (u.rewriteOwed = false → t.rewriteOwed = false ∧ t.rewrite = u.rewrite ∧ t.rewriteNumber = u.rewriteNumber)

/-- The path unit after the end of a step: requests placed and a grant made, nothing else (R181, R182). -/
def PathFollows (u t : Path) : Prop :=
  t.freeze = u.freeze ∧ t.dropped = u.dropped ∧ (u.port = .host → t.port = .host) ∧
  ((∀ a, u.host ≠ .portWait a) → t.host = u.host ∧ t.readData = u.readData)

/-- `t` is `u`, the path unit apart, but for what the blocks begin at once at the end of a step (log 10). -/
def FollowsButPath (u t : State) : Prop :=
  t.cfg = u.cfg ∧ t.motion = u.motion ∧ t.mem = u.mem ∧ t.pending = u.pending ∧
  t.blk.causes = u.blk.causes ∧ t.blk.track = u.blk.track ∧ t.blk.cache = u.blk.cache ∧ t.blk.cues = u.blk.cues ∧
  t.blk.stations = u.blk.stations ∧ t.blk.oven = u.blk.oven ∧ t.blk.field = u.blk.field ∧
  PlanFollows u.blk.plan t.blk.plan ∧ ReportFollows u.blk.report t.blk.report ∧
  t.blk.restart = { u.blk.restart with writing := t.blk.restart.writing } ∧
  (u.blk.restart.writing.isSome → t.blk.restart.writing = u.blk.restart.writing)

/-- `t` is `u` but for what the blocks begin at once at the end of a step (log 10). -/
def FollowsFrom (u t : State) : Prop := FollowsButPath u t ∧ PathFollows u.blk.path t.blk.path

/-! ### The commands of completions -/

/-- The command that the completion of a word of a class is. -/
def wordCommand (decision : Decision) : WordClass → Instr
  | .plan => .planWrite decision
  | .settings => .settingsWrite decision
  | .mount => .mountWrite decision
  | .remount => .remountRequest decision
  | .trim => .trim decision
  | .slotFree => .outcomeSlotFree decision
  | .acknowledge => .acknowledge decision
  | .pageSelect => .pageSelect decision
  | .snapshotDrop => .snapshotWindowWrite decision
  | .arming => .armingRequest decision
  | .plain => .hostWordComplete decision

/-- The command that the completion of an internal access of a kind is. -/
def accessCommand (decision : Decision) : AccessKind → Instr
  | .anchorRead => .anchorBurstReturned decision
  | .mountRead => .mountBurstReturned decision
  | .snapshotRead => .snapshotReadReturned decision
  | .mapRead => .outcomeMapReadReturned decision
  | .resultWrite | .startWrite => .resultWordWritten decision
  | .snapshotWrite => .snapshotBurstComplete decision
  | .snapshotClosing => .snapshotClosingComplete decision
  | .settingRead => .settingBurstReturned decision
  | .planRead => .planReadReturned decision
  | .freeingWrite => .freeingWriteComplete decision
  | .recordBurst => .recordBurstComplete decision
  | .recordWord0 => .recordWord0Complete decision
  | .statusBurst => .statusBurstComplete decision

/-- The memory port carries word `w` of a host write, not dropped: `v`, at an offset of a window. -/
def CarriesWrite (s : State) (w : CarriedWord) (v : WriteWord) (win : Window) (off : Nat) : Prop :=
  s.blk.path.carried = some w ∧ w.judged = .pass ∧ w.word = some v ∧ v.enables ≠ 0 ∧
    w.place s.ctx s.blk = (win, off)

/-- A host write word completes with an effect: memory takes the word's enabled bytes, the blocks become `b` but for
the path unit and what follows at once, the freeze and the dropped-write count stay. -/
def WordLeaves (s : State) (w : CarriedWord) (v : WriteWord) (b : Blocks) (t : State) : Prop :=
  FollowsButPath ((s.setMem (s.mem.writeWord w.addr v.enables v.value)).setBlk b) t ∧
    t.blk.path.freeze = s.blk.path.freeze ∧ t.blk.path.dropped = s.blk.path.dropped

/-- The memory port carries an internal access that no reset abandoned. -/
def CarriesAccess (s : State) (a : Access) : Prop := s.blk.path.port = .internal a false

/-- The words of memory that an access reads. -/
def readBy (s : State) (a : Access) : List Word := s.mem.readWords a.addr a.count

/-- An internal access completes with an effect: memory takes its words, the blocks become `b` but for the path unit and
what follows at once. -/
def AccessLeaves (s : State) (a : Access) (b : Blocks) (t : State) : Prop :=
  FollowsButPath ((s.setMem (s.mem.carry a)).setBlk b) t ∧
    t.blk.path.freeze = s.blk.path.freeze ∧ t.blk.path.dropped = s.blk.path.dropped

/-! ### Parts of a state that statements name -/

/-- The motion unit after a unit event by a forward pulse (R2, R10, R12), P and H apart. -/
def afterForward (s : State) : Motion :=
  let up := nextPair (s.motion.encA, s.motion.encB)
  { s.motion with
    encA := up.1, encB := up.2, residue := 0, state := .advancing, stopTimer := some s.cfg.stopDetect,
    speedCount := s.motion.speedCount + 1 }

/-- The motion unit after a unit event by a backward pulse. -/
def afterBackward (s : State) : Motion :=
  let down := nextPair (nextPair (nextPair (s.motion.encA, s.motion.encB)))
  { s.motion with
    encA := down.1, encB := down.2, residue := 0, state := .backing, stopTimer := some s.cfg.stopDetect,
    speedCount := s.motion.speedCount + 1 }

/-- A raise claim leaves an entry (R13): latched anew, or with a higher count. -/
def Raised (k : CauseKind) (source : Nat) (level : Level) (cs cs' : CauseSet) : Prop :=
  cs'.entry k = some (match cs.entry k with
    | none => ⟨level, source, 1⟩
    | some e => ⟨if k = .moduleLost ∧ level = .trip then .trip else e.level, e.source, inc8 e.count⟩) ∧
  ∀ j, j ≠ k → cs'.entry j = cs.entry j

/-- What a segment is, its marks, probes and flags apart. -/
def segmentShape (g : Segment) : Nat × SegKind × SegOrigin × Nat × Option Nat :=
  (g.seq, g.kind, g.origin, g.head, g.length)

/-- The ENTERING segment is `g`, behind `old`; H lies beyond its head, and no segment retires at H. -/
def Entering (x : Ctx) (b : Blocks) (old : List Segment) (g : Segment) : Prop :=
  b.live = true ∧ b.track.segs = old ++ [g] ∧ g.length = none ∧ g.head < x.motion.h ∧ (∀ g' ∈ old, g'.seq ≠ g.seq) ∧
    b.track.segs.filter (retires x) = []

/-- The boundary is to be taken at H: its due end, or DEFERRED, past the fabric that a warm arming recorded as passed
(log 46). -/
def BoundaryAtH (x : Ctx) (t : Track) : Prop :=
  t.boundary = .opened (some x.motion.h) ∨ (∃ c, t.boundary = .deferred c) ∧ t.passed ≤ x.motion.h

/-- The first seam of the list is PENDING and due at H, the rest beyond. -/
def SeamAtH (x : Ctx) (t : Track) (e : PendingSeam) (rest : List PendingSeam) : Prop :=
  t.seams = e :: rest ∧ e.absorbedBy = none ∧ e.due = x.motion.h ∧ (∀ e' ∈ rest, x.motion.h < e'.due) ∧
    0 < x.cfg.seamLength ∧ x.motion.h + x.cfg.seamLength < Config.positions

/-- The planned end of an order admitted at a head (R24, R41): its length beyond, or with ALIGN and a mounted reference
screen the first position from there on at which that screen's phase is 0. An order until a seam has none. -/
def PlannedEnd (s : Stations) (o : StagedOrder) (head e : Nat) : Prop :=
  o.kind ≠ .printUntilSeam → 0 < o.length ∧ e < Config.positions ∧
    match o.align, alignMount s with
    | true, some m => head + o.length ≤ e ∧ (e + m.origin) % m.repeatLen = 0 ∧
        ∀ e', head + o.length ≤ e' → (e' + m.origin) % m.repeatLen = 0 → e ≤ e'
    | _, _ => e = head + o.length

/-- A continuation owed whose remaining length has fallen by an amount: still owed, or, below the minimum order length,
dropped (R35, R37). -/
def Shortened (c : Anchor) (o : ContOwed) (by' : Int) : Option ContOwed :=
  if (o.remaining : Int) - by' < c.minOrder then none
  else some { o with remaining := ((o.remaining : Int) - by').toNat }

/-- An exchange with a module ends in a miss: the counts, the module's state, the hand-over of a loss, and the selector
(R147 to R151, R153). The state of a module unconfigured since its exchange began stays (log 29, the model's choice). -/
def MissTaken (s : State) (a : Fin 24) (r : MissReason) (t : State) : Prop :=
  let m := s.blk.field.module[a]
  let m' := t.blk.field.module[a]
  let lost := configured s.ctx s.blk a = true ∧ m.online = true ∧ m.missed.online = false
  t.blk.field.missCounts = s.blk.field.missCounts.set r.index (inc16 s.blk.field.missCounts[r.index]) ∧
  m' = { (if configured s.ctx s.blk a then m.missed else m) with
    totalMisses := inc16 m.totalMisses, lastMiss := some r, selector := !m.selector } ∧
  (∀ j : Fin 24, j ≠ a → t.blk.field.module[j] = s.blk.field.module[j]) ∧
  (s.blk.live = true → lost →
    (∀ k : Fin 16, moduleScreen a = some k →
      let st := s.blk.stations.station[k]
      t.blk.stations.station[k] = { st with lift := .fault .moduleLost, liftTimer := none, want := .up } ∧
      Raised .moduleLost (k.val + 1) (if st.lift = .lowering ∨ st.lift = .engaged ∨ st.lift = .lifting
        then .trip else .hold) s.blk.causes t.blk.causes) ∧
    ∀ z : Fin 8, moduleZone a = some z → Raised .moduleLost (z.val + 17) .hold s.blk.causes t.blk.causes) ∧
  (¬ lost → t.blk.stations = s.blk.stations ∧ t.blk.causes = s.blk.causes) ∧
  (∀ e, t.blk.field.exchange = some e → e.phase = .quiet) ∧ t.mem = s.mem ∧ t.motion = s.motion ∧ t.cfg = s.cfg

/-- An arming ends refused: its reading ends and its result is owed behind the work decided before, the generation
stays. An ARMING part that came from ARMED is ARMED again at once, and begins a snapshot write that waited; one that came
from DORMANT stays ARMING until its result words are written (R189, R193, R194; log 19, the model's choice). -/
def ArmingRefused (code : ResultCode) (id : BitVec 16) (s : State) (a : Access) (t : State) : Prop :=
  let r := s.blk.restart
  let back : Prop := r.part = .arming true ∨ r.part = .armed
  AccessLeaves s a (s.blk.setRestart t.blk.restart) t ∧
    t.blk.restart.part = (if r.part = .arming true then .armed else r.part) ∧
    t.blk.restart.arming = none ∧ t.blk.restart.generation = r.generation ∧
    (back → r.snapshotPending = true →
      t.blk.restart.work = r.work.tail ++ [.result code id, .snapshot] ∧ t.blk.restart.snapshotPending = false) ∧
    (¬ back ∨ r.snapshotPending = false →
      t.blk.restart.work = r.work.tail ++ [.result code id] ∧
      t.blk.restart.snapshotPending = r.snapshotPending)

/-- The arming in progress and the accesses that serve it agree. An arming is held only in ARMING, and past its anchor
phase with an anchor that passed its checks. A request waits in its requester's slot, the restart unit's only while the
port carries no access of that unit, and a read of the mount window or of the snapshot, waiting or carried, belongs to an
arming past its anchor phase. -/
def ArmingSound (s : State) : Prop :=
  let r := s.blk.restart
  let p := s.blk.path
  (∀ a, r.arming = some a → (∃ f, r.part = .arming f) ∧ (a.phase ≠ .anchor → anchorFault a.anchor = none)) ∧
  (∀ q x, p.slot q = some x → x.kind.requester = q) ∧
  (∀ x, p.port = .internal x false → x.kind.requester = .restart → p.slot .restart = none) ∧
  ∀ x, p.slot .restart = some x ∨ p.port = .internal x false → x.kind = .mountRead ∨ x.kind = .snapshotRead →
    ∃ a, r.arming = some a ∧ a.phase ≠ .anchor

/-- The station of a screen after an arming result with a mount window: the mount data read, FAULT where it is mounted, the
rest at its reset value (R118, R190). -/
def armedStationState (m : MountRecord) : Station where
  mount := m
  lift := if m.mounted then .fault .start else .lifted
  liftTimer := none
  want := .up
  holding := .before
  wanted := 0
  engaged := 0
  override := none
  pasteHold := none
  trim := ⟨0, 0⟩
  pendingTrim := none
  outOfReg := 0
  worst := 0
  seen := false

/-- What a cold arming leaves, block by block (R190, R191): the part ARMED on the anchor read, P and H at 0, one STARVED
BLANK at 0, every store empty and every count at its cold value, an empty cause set, the mount data read with every
mounted screen in FAULT, every listed zone HELD at the standby setpoint, every module LOST and the first link cycle begun,
and the start word and the result owed before a snapshot. -/
def ColdState (code : ResultCode) (arm : Arming) (s t : State) : Prop :=
  let r := s.blk.restart
  let b := t.blk
  t.cfg = parseAnchor arm.anchor ∧
  t.motion = { s.motion with p := 0, h := 0, residue := 0, encErrors := 0, lostUnits := 0 } ∧
  (∀ k, b.causes.entry k = none) ∧
  b.track = { Track.reset with
    segs := [{ Segment.blank 0 with seq := 1 }]
    seqCounter := 1
    discarded := satAdd 4294967295 s.blk.track.discarded s.blk.track.segs.length } ∧
  b.plan = .reset ∧ b.cache = .reset ∧ b.cues = .reset ∧
  ((∀ i : Fin 96, b.stations.image[i] = wordAt arm.mount i) ∧
    (∀ k : Fin 16, b.stations.station[k] = armedStationState (mountRecord arm.mount k)) ∧
    b.stations = { Stations.reset with
      image := b.stations.image
      station := b.stations.station
      liftTimeout := mountTimeout arm.mount
      refScreen := mountRefScreen arm.mount
      generation := (wordAt arm.mount 95).extractLsb' 0 16 }) ∧
  ((∀ z : Fin 8, b.oven.zone[z] = {
      holding := .before, recorded := none, runSet := if z.val < t.cfg.zoneCount then t.cfg.standbySetpoint else 0,
      source := .held, runAir := 0, mode := .run, temp := 0 }) ∧
    b.oven = { Oven.reset with zone := b.oven.zone, timerRunning := true }) ∧
  ((∀ a : Fin 24, b.field.module[a] = .reset) ∧ b.field = { FieldLine.reset with
    module := b.field.module
    phase := b.field.phase
    lineDriven := s.blk.field.lineDriven
    command := s.blk.field.command
    exchange := b.field.exchange
    cycles := 1
    cycleTimer := some t.cfg.cyclePeriod } ∧
    (∀ k : Fin 16, b.field.phase[k] = (mountRecord arm.mount k).phaseData) ∧
    (∀ e, b.field.exchange = some e → e.phase = .quiet ∧ configured t.ctx b e.module = true)) ∧
  (∃ image, b.report = { Report.reset with
    full := List.replicate t.cfg.outcomeSlots false
    statusTimer := some t.cfg.statusInterval
    rewriteNumber := s.blk.report.rewriteNumber + 1
    rewrite := some image
    page := s.blk.report.page }) ∧
  b.path.freeze = false ∧ b.path.dropped = 0 ∧
  b.restart = { Restart.reset with
    part := .armed
    generation := r.generation
    distanceMark := t.cfg.snapshotDistance
    work := r.work.tail ++ [.startWord, .result code arm.id, .snapshot]
    writing := b.restart.writing }

/-- Memory of two states reads the same at every byte but those of a set of keys. -/
def ReadsSameOutside (stored : Nat → Prop) (s t : State) : Prop :=
  ∀ k, ¬ stored k → t.mem.readByte k = s.mem.readByte k

end Sys2Proof
end

