-- ==== Sys2Proof/Certificates/Slice0/Obligations.lean ====
section
/-! DEFINITION. The statements about the block for the provers. A statement that names a log entry rests on a choice of
the model. In every statement `t` is the state that a command answers with. -/

open Sys2Proof Sys2Proof.Machine

/-! ### The queue, and when a command stops -/

/-- A step is the command at the front of the queue, run on the state with the queue's rest. With no command waiting the
block idles (log 4, the model's choice). -/
def Obligations.StepRunsTheFrontCommand : Prop :=
  (∀ (c : Instr) (rest : List Instr) (s : State), s.pending = c :: rest → step s = exec c (s.setPending rest)) ∧
  (∀ s : State, s.pending = [] → step s = .next s)

/-- Every well-formed command answers a next state in every state. That a command answers next where its event cannot
happen (a stopped timer, a completion the port does not carry) is log 3, the model's choice. -/
def Obligations.EveryCommandAnswers : Prop := ∀ (c : Instr) (s : State), c.wf = true → Answers c s

/-! ### Reset -/

/-- What reset leaves, block by block. The values are the chapters' own but for these, which the model names: the encoder
levels of State.reset (log 7); the anchor data that R9 does not name, the lift travel timeout, the reference screen and
the fields of unmounted mount records, the phase data of the link cycle in progress, the last command frame, the words
returned and the corrected H (log 43); and the mark of passed fabric (log 46). -/
def Obligations.ResetValues : Prop :=
  let s := State.reset
  (s.cfg.divisor = 1 ∧ s.cfg.backlash = 0 ∧ s.cfg.stopDetect = 2000 ∧ s.cfg.zoneCount = 0) ∧
  (∀ encA encB, Motion.reset encA encB = {
    encA := encA, encB := encB, encErrors := 0, residue := 0, p := 0, h := 0, lostUnits := 0, state := .halted,
    stopTimer := none, speed := 0, speedCount := 0 }) ∧ s.motion = .reset false false ∧
  ((∀ k, s.blk.causes.entry k = none) ∧ s.blk.holdLine = false ∧ s.blk.tripLine = false ∧
    alertLine s.ctx s.blk = false ∧ s.blk.markLine = false ∧ s.blk.waitLine = false) ∧
  s.blk.track = {
    segs := [], boundary := .opened none, seams := [], debounce := none, seqCounter := 0, starvedHold := false,
    ignoredEdges := 0, droppedSeams := 0, absorbedSeams := 0, discarded := 0, passed := 0 } ∧
  s.blk.plan = {
    postIndex := 0, takeIndex := 0, posted := 0, take := .idle, result := none, staged := none, taken := 0,
    rejected := 0 } ∧
  ((∀ e : Fin 8, s.blk.cache.entries[e] = ⟨.free, 0, 0, 0, 0, none⟩) ∧ s.blk.cache = {
    entries := s.blk.cache.entries, useOrder := List.finRange 8, waiting := none, fetchQueue := [], words := [],
    lastFault := none, fetches := 0, restarts := 0, supersedes := 0, failures := 0 }) ∧
  s.blk.cues = {
    queue := [], insertions := 0, fired := 0, late := 0, dropped := 0, cancelled := 0, stray := 0, warmDiscarded := 0,
    markPulse := false } ∧
  ((∀ i : Fin 96, s.blk.stations.image[i] = 0) ∧
    (∀ k : Fin 16, s.blk.stations.station[k] = {
      mount := ⟨false, 0, 0, 0, 0, 0, 0⟩, lift := .lifted, liftTimer := none, want := .up, holding := .before,
      wanted := 0, engaged := 0, override := none, pasteHold := none, trim := ⟨0, 0⟩, pendingTrim := none,
      outOfReg := 0, worst := 0, seen := false }) ∧
    s.blk.stations = {
      image := s.blk.stations.image, station := s.blk.stations.station, liftTimeout := 0, refScreen := 0,
      generation := 0, lastRefusal := none, remounts := 0, refusedRemounts := 0, trimsTaken := 0, trimsRefused := 0,
      liftTimeouts := 0, liftFaults := 0, seamUnlifted := 0 }) ∧
  ((∀ z : Fin 8, s.blk.oven.zone[z] = {
      holding := .before, recorded := none, runSet := 0, source := .held, runAir := 0, mode := .run, temp := 0 }) ∧
    s.blk.oven = {
      zone := s.blk.oven.zone, timerRunning := false, dwellCount := 0, dwellStage := 0, cured := 0, unverified := 0,
      undercured := 0, overcured := 0, standbys := 0, vents := 0, coverageShort := 0 }) ∧
  ((∀ a : Fin 24, s.blk.field.module[a] = {
      online := false, misses := 0, goods := 0, totalMisses := 0, lastMiss := none, lastGood := none,
      faultMarker := false, selector := false, item0 := none, item1 := none }) ∧
    (∀ r : Fin 7, s.blk.field.missCounts[r] = 0) ∧ (∀ k : Fin 16, s.blk.field.phase[k] = ⟨0, 0⟩) ∧ s.blk.field = {
      module := s.blk.field.module, phase := s.blk.field.phase, exchange := none, lineDriven := false, command := [], cycleTimer := none,
      replyTimer := none, startOwed := false, cycles := 0, overruns := 0, lastDuration := 0,
      missCounts := s.blk.field.missCounts, lateFrames := 0 }) ∧
  s.blk.report = {
    writeIndex := 0, full := [], queue := [], recordWrite := none, retired := 0, segmentsWritten := 0,
    rejectionsWritten := 0, outcomesLost := 0, rejectionsLost := 0, overwritten := 0, rejections := 0,
    stallsBegun := 0, stallsFilled := 0, stallsExpired := 0, stallTimer := none, acks := 0, statusTimer := none,
    rewriteOwed := false, rewriteNumber := 0, rewrite := none, page := 0 } ∧
  s.blk.path = {
    host := .empty, readData := [], freeze := false, port := .free, slots := .replicate 4 none, hostRun := 0,
    dropped := 0 } ∧
  s.blk.restart = {
    part := .dormant, generation := 0, snapshotPending := false, distanceMark := 0, moved := false, work := [],
    arming := none, writing := none, mapNext := none, correctedH := 0 }

/-- POWER_ON_RESET puts every block at its reset value and the ports idle; job memory stays (R187). RESET_LINE does the
same, but for an access that the memory port carries, which completes (R184), and a host access that waits. -/
def Obligations.ResetsReturnToDormant : Prop :=
  (∀ (a b : Bool) (s : State), exec (.powerOnReset a b) s =
    .next { cfg := .reset, motion := .reset a b, blk := .reset, mem := s.mem, pending := s.pending, moments := s.moments }) ∧
  ∀ (a b : Bool) (s : State), ∃ t, exec (.resetLine a b) s = .next t ∧
    FollowsButPath
      { cfg := .reset, motion := .reset a b, blk := .reset, mem := s.mem, pending := s.pending, moments := s.moments } t ∧
    t.blk.path.freeze = false ∧ t.blk.path.dropped = 0 ∧ t.blk.path.slots = .replicate 4 none ∧
    (∀ x i, s.blk.path.port = .internal x i → t.blk.path.port = .internal x true) ∧
    ((∀ x, s.blk.path.host ≠ .stalled x ∧ s.blk.path.host ≠ .portWait x) → t.blk.path.host = s.blk.path.host) ∧
    ∀ x, s.blk.path.host = .stalled x ∨ s.blk.path.host = .portWait x →
      t.blk.path.host = .portWait x ∨ t.blk.path.host = .carrying x 0 (judgeWord t.ctx t.blk x 0)

/-! ### Invariants of every step -/

/-- Job memory keeps its canonical form. -/
def Obligations.MemoryStaysCanonical : Prop := Kept fun s => s.mem.wf = true

/-- H is never below P, and both are 40-bit positions (R4, R5). -/
def Obligations.PositionsStayInRange : Prop := Kept fun s => s.motion.p ≤ s.motion.h ∧ s.motion.h < Config.positions

/-- The residue lies in −(d−1)..+(d−1) (R2). The arming in progress and the accesses that serve it agree; that rules out
states that no run reaches. -/
def Obligations.ResidueStaysBelowDivisor : Prop :=
  Kept fun s => (-(s.cfg.divisor : Int) < s.motion.residue ∧ s.motion.residue < s.cfg.divisor) ∧ ArmingSound s

/-- The cue queue holds at most 64 cues (R82), in due order (R85), and none at or below H (R87, R94). -/
def Obligations.QueuedCuesLieBeyondH : Prop :=
  Kept fun s => s.blk.cues.queue.length ≤ 64 ∧ s.blk.cues.queue.Pairwise (fun a b => a.due ≤ b.due) ∧
    ∀ p ∈ s.blk.cues.queue, s.motion.h < p.due

/-- The pending seam list holds at most 4 entries (R33), the retirement queue at most 8 records (R159), and the host run
count lies in 0..4 (R182). -/
def Obligations.StoresStayBounded : Prop :=
  (Kept fun s => s.blk.track.seams.length ≤ 4) ∧
  (Kept fun s => s.blk.report.queue.length ≤ 8) ∧
  (Kept fun s => s.blk.path.hostRun ≤ 4)

/-- A latched entry has a raise count of 1..255, and its kind's level, or TRIP for MODULE_LOST (R13, R14). -/
def Obligations.LatchedEntriesStayLegal : Prop :=
  Kept fun s => ∀ k e, s.blk.causes.entry k = some e →
    (1 ≤ e.count ∧ e.count ≤ 255) ∧ (e.level = k.level ∨ (k = .moduleLost ∧ e.level = .trip))

/-- While the part is DORMANT, or ARMING from DORMANT, the latched cause set is empty (R15, R17). -/
def Obligations.DormantSetStaysEmpty : Prop := Kept fun s => s.blk.live = false → ∀ k, s.blk.causes.entry k = none

/-- The memory port carries the host access exactly while the host access is CARRYING (R172, R173). -/
def Obligations.PortAndHostAgree : Prop :=
  Kept fun s => s.blk.path.port = .host ↔ s.blk.path.carried.isSome = true

/-- Every invariant above holds at reset. -/
def Obligations.InvariantsHoldAtReset : Prop :=
  let s := State.reset
  s.mem.wf = true ∧ (s.motion.p ≤ s.motion.h ∧ s.motion.h < Config.positions) ∧
  ((-(s.cfg.divisor : Int) < s.motion.residue ∧ s.motion.residue < s.cfg.divisor) ∧ ArmingSound s) ∧
  (s.blk.cues.queue.length ≤ 64 ∧ s.blk.cues.queue.Pairwise (fun a b => a.due ≤ b.due) ∧
    ∀ p ∈ s.blk.cues.queue, s.motion.h < p.due) ∧
  s.blk.track.seams.length ≤ 4 ∧ s.blk.report.queue.length ≤ 8 ∧ s.blk.path.hostRun ≤ 4 ∧
  (∀ k e, s.blk.causes.entry k = some e →
    (1 ≤ e.count ∧ e.count ≤ 255) ∧ (e.level = k.level ∨ (k = .moduleLost ∧ e.level = .trip))) ∧
  (s.blk.live = false → ∀ k, s.blk.causes.entry k = none) ∧
  (s.blk.path.port = .host ↔ s.blk.path.carried.isSome = true)

/-! ### Memory: who writes it, and where -/

/-- A host word completes: the command of its class answers, memory takes the word, a read hands its word back, and the
next word of the access is judged and carried, or the host port becomes EMPTY (R172, R173, R175). A word not dropped
stores its enabled lanes at its address and nothing else; a dropped word, and a word read, store nothing (R171, R176). A
word of no command of its own has no other effect: among them a word outside every window, an ANCHOR word that is no
arming request, and a word with no byte enabled (R175, R178, R179). That enable i covers bits 8i to 8i + 7 of the word is
log 2 (PRESUMED). -/
def Obligations.HostWordsCompleteAndStore : Prop :=
  (∀ (s : State) (w : CarriedWord) (decision : Decision), s.blk.path.carried = some w →
      ∃ t, exec (wordCommand decision (wordClass s.ctx s.blk w)) s = .next t ∧
        t.cfg = s.cfg ∧ t.motion = s.motion ∧ t.pending = s.pending ∧ t.mem = carryWord w s.mem ∧
        t.blk.path.readData = s.blk.path.readData ++ (if accessReads w.access then [s.mem.readWord w.addr] else []) ∧
        t.blk.path.dropped = (if w.judged = .pass then s.blk.path.dropped else inc32 s.blk.path.dropped) ∧
        t.blk.path.host = (if w.index + 1 < w.access.count then
          .carrying w.access (w.index + 1) (judgeWord t.ctx t.blk w.access (w.index + 1)) else .empty)) ∧
  (∀ (s t : State) (w : CarriedWord) (decision : Decision), s.blk.path.carried = some w →
      exec (wordCommand decision (wordClass s.ctx s.blk w)) s = .next t →
      (∀ v, w.judged = .pass → w.word = some v →
        ReadsSameOutside (fun k => ∃ i < 4, v.enables.getLsbD i = true ∧ k = laneKey w.addr i) s t ∧
        (s.mem.wf = true → ∀ i < 4, v.enables.getLsbD i = true →
          t.mem.readByte (laneKey w.addr i) = v.value.extractLsb' (8 * i) 8)) ∧
      (w.judged ≠ .pass ∨ w.word = none → ReadsSameOutside (fun _ => False) s t)) ∧
  ((∀ (s : State) (w : CarriedWord) (v : WriteWord) (decision : Decision), s.blk.path.carried = some w → w.judged = .pass →
      w.word = some v → wordClass s.ctx s.blk w = .plain →
      ∃ t, exec (.hostWordComplete decision) s = .next t ∧ WordLeaves s w v s.blk t) ∧
    ∀ (s : State) (w : CarriedWord) (v : WriteWord) (off : Nat), w.judged = .pass → w.word = some v →
      (v.enables = 0 ∨ CarriesWrite s w v .outside off ∨
        (CarriesWrite s w v .anchor off ∧ (off ≠ 63 ∨ v.enables ≠ 0xF#4 ∨ v.value = 0))) →
      wordClass s.ctx s.blk w = .plain)

/-- An internal access completes: the command of its kind answers, memory takes its words, and nothing else happens where
a reset has abandoned it (R173, R184). A write stores the words of its data from its address on and nothing else; a read
stores none. -/
def Obligations.InternalAccessesCompleteAndStore : Prop :=
  (∀ (s : State) (a : Access) (abandoned : Bool) (decision : Decision), s.blk.path.port = .internal a abandoned →
      ∃ t, exec (accessCommand decision a.kind) s = .next t ∧ t.mem = s.mem.carry a ∧ t.pending = s.pending ∧
        (abandoned = true → FollowsButPath (s.setMem (s.mem.carry a)) t ∧ t.blk.path.freeze = s.blk.path.freeze)) ∧
  (∀ (s t : State) (a : Access) (abandoned : Bool) (decision : Decision), s.blk.path.port = .internal a abandoned →
      exec (accessCommand decision a.kind) s = .next t →
      (a.data = none → ReadsSameOutside (fun _ => False) s t) ∧
      ∀ ws, a.data = some ws →
        ReadsSameOutside (fun k => ∃ j < ws.length, ∃ i < 4, k = laneKey (a.addr + j) i) s t ∧
        (s.mem.wf = true → ws.length ≤ 8 → ∀ j (h : j < ws.length), t.mem.readWord (a.addr + j) = ws[j]))

/-- Every command that is no completion leaves every byte of memory as it was. -/
def Obligations.OtherCommandsKeepMemory : Prop :=
  ∀ (c : Instr) (s t : State), (∀ decision k, c ≠ wordCommand decision k) → (∀ decision k, c ≠ accessCommand decision k) →
    exec c s = .next t → ReadsSameOutside (fun _ => False) s t

/-! ### Motion unit (01) -/

/-- A change of the pair that gives no unit event moves nothing but the decoder: a step error is counted (R1), a pulse
adds 1 to the residue or subtracts 1 (R2). In DORMANT and in ARMING from DORMANT a unit event acts on the motion state, the
stop-detect timer and the speed count alone; P and H stay (R3). The moved marker of a warm arming is R194's. -/
def Obligations.PulsesAndIdleUnitEvents : Prop :=
  (∀ (s : State) (order : List Taker),
      let a := s.motion.encA
      let b := s.motion.encB
      let up := nextPair (a, b)
      let down := nextPair (nextPair (nextPair (a, b)))
      exec (.encoderPulse (!a) (!b) order) s = .next (s.setMotion { s.motion with
        encA := !a, encB := !b,
        encErrors := if s.motion.encErrors < 65535 then s.motion.encErrors + 1 else s.motion.encErrors }) ∧
      (s.motion.residue + 1 ≠ s.cfg.divisor →
        exec (.encoderPulse up.1 up.2 order) s = .next (s.setMotion { s.motion with
          encA := up.1, encB := up.2, residue := s.motion.residue + 1 })) ∧
      (s.motion.residue - 1 ≠ -(s.cfg.divisor : Int) →
        exec (.encoderPulse down.1 down.2 order) s = .next (s.setMotion { s.motion with
          encA := down.1, encB := down.2, residue := s.motion.residue - 1 }))) ∧
  (∀ (s : State) (order : List Taker), s.blk.live = false →
      let up := nextPair (s.motion.encA, s.motion.encB)
      let down := nextPair (nextPair (nextPair (s.motion.encA, s.motion.encB)))
      (s.motion.residue + 1 = s.cfg.divisor → ∃ t, exec (.encoderPulse up.1 up.2 order) s = .next t ∧
        FollowsFrom ((s.setMotion (afterForward s)).setBlk (markMoved s.blk)) t) ∧
      (s.motion.residue - 1 = -(s.cfg.divisor : Int) → ∃ t, exec (.encoderPulse down.1 down.2 order) s = .next t ∧
        FollowsFrom ((s.setMotion (afterBackward s)).setBlk (markMoved s.blk)) t))

/-- A forward unit event at P = H, below the limit, is an H advance (R4, R5): P and H rise, and the blocks take the
advance in the order that the operand gives (R6; log 8), the oven unit an entry to ADVANCING with it (R11, R136). The
field line, the ports and the part state have no part in it. -/
def Obligations.ForwardUnitAdvancesH : Prop :=
  ∀ (s : State) (order : List Taker), s.blk.live = true → s.motion.residue + 1 = s.cfg.divisor →
    s.motion.p = s.motion.h → s.motion.p + 1 < Config.positions →
    let up := nextPair (s.motion.encA, s.motion.encB)
    let m := { afterForward s with p := s.motion.p + 1, h := s.motion.h + 1 }
    let entering := decide (s.motion.state ≠ .advancing)
    ∃ t, exec (.encoderPulse up.1 up.2 order) s = .next t ∧
      FollowsFrom ((s.setMotion m).setBlk
        ((fullOrder order).foldl (takeAdvance ⟨s.cfg, m⟩ entering) (markMoved s.blk))) t ∧
      t.motion = m ∧ t.cfg = s.cfg ∧ t.mem = s.mem ∧ t.pending = s.pending ∧ t.blk.field = s.blk.field ∧
      t.blk.path.freeze = s.blk.path.freeze ∧ t.blk.path.dropped = s.blk.path.dropped ∧
      t.blk.restart.part = s.blk.restart.part ∧ t.blk.restart.generation = s.blk.restart.generation

/-- A forward unit event below H is a return event: P moves and H stays (R5). The stations take it (R6; log 8), and of the
track it can change screen marks alone (R110, R114); it gives no cue, no order and no snapshot. A station at a repeat
boundary judges the repeat that ends, REGISTER flagged and raised where that leaves the count at K or above, and activates
a pending trim (R110, R111, R114); any other changes nothing. -/
def Obligations.ReturnEventKeepsTheTrack : Prop :=
  (∀ (s : State) (order : List Taker), s.blk.live = true → s.motion.residue + 1 = s.cfg.divisor →
    s.motion.p < s.motion.h → s.motion.p + 1 < Config.positions →
    let up := nextPair (s.motion.encA, s.motion.encB)
    let m := { afterForward s with p := s.motion.p + 1 }
    let entering := decide (s.motion.state ≠ .advancing)
    ∃ t, exec (.encoderPulse up.1 up.2 order) s = .next t ∧
      FollowsFrom ((s.setMotion m).setBlk
        ((fullOrder order).foldl (takeReturn ⟨s.cfg, m⟩ entering) (markMoved s.blk))) t ∧
      t.motion = m ∧ t.cfg = s.cfg ∧ t.mem = s.mem ∧ t.pending = s.pending ∧
      t.blk.track = { s.blk.track with segs := t.blk.track.segs } ∧
      t.blk.track.segs.map (fun g => { g with marks := .replicate 16 ⟨.notReached, false⟩ }) =
        s.blk.track.segs.map (fun g => { g with marks := .replicate 16 ⟨.notReached, false⟩ }) ∧
      t.blk.cache = s.blk.cache ∧ t.blk.cues = s.blk.cues ∧ t.blk.field = s.blk.field ∧
      PlanFollows s.blk.plan t.blk.plan ∧ t.blk.restart.work = s.blk.restart.work) ∧
  ∀ (x : Ctx) (b : Blocks) (k : Fin 16), b.live = true →
    let st := b.stations.station[k]
    let b' := takeReturn x false b (.station k)
    (0 < st.mount.repeatLen → (phaseUnits x k st.mount : Int) =
      ((x.motion.p : Int) - x.cfg.screenOffset[k] + st.mount.origin) % st.mount.repeatLen) ∧
    (st.mount.mounted = false ∨ phaseUnits x k st.mount ≠ 0 → b' = b) ∧
    (st.mount.mounted = true → phaseUnits x k st.mount = 0 →
      let count := if st.seen then (if st.mount.tolerance < st.worst then satInc 15 st.outOfReg else 0) else st.outOfReg
      b'.stations.station[k] = { st with
        outOfReg := count, worst := 0, seen := false, trim := st.pendingTrim.getD st.trim, pendingTrim := none } ∧
      (∀ j : Fin 16, j ≠ k → b'.stations.station[j] = b.stations.station[j]) ∧
      (count < st.mount.persistence → b'.causes = b.causes ∧ b'.track = b.track) ∧
      (st.mount.persistence ≤ count → Raised .register (k.val + 1) .hold b.causes b'.causes ∧
        ∀ q, st.holding = .segment q → b'.track = modSeg q (fun g => { g with
          marks := g.marks.set k { g.marks[k] with register := true } }) b.track))

/-- A backward unit event above 0 moves P and leaves H, and raises TRACK_UNCERTAIN when H − P then exceeds the backlash
allowance (R4, R5, R8). A unit event that P cannot take is discarded and counted as lost: at 2^40 − 1 forward it raises
POSITION_LIMIT, at 0 backward TRACK_UNCERTAIN. The motion state and the timer follow it all the same (R4, R7). -/
def Obligations.BackwardAndDiscardedUnitEvents : Prop :=
  (∀ (s : State) (order : List Taker), s.blk.live = true → s.motion.residue - 1 = -(s.cfg.divisor : Int) →
      0 < s.motion.p →
      let down := nextPair (nextPair (nextPair (s.motion.encA, s.motion.encB)))
      ∃ t, exec (.encoderPulse down.1 down.2 order) s = .next t ∧
        FollowsFrom ((s.setMotion { afterBackward s with p := s.motion.p - 1 }).setBlk
          (if s.cfg.backlash < s.motion.h - (s.motion.p - 1) then raise .trackUncertain 0 (markMoved s.blk)
            else markMoved s.blk)) t) ∧
  (∀ (s : State) (order : List Taker), s.blk.live = true →
      let up := nextPair (s.motion.encA, s.motion.encB)
      let down := nextPair (nextPair (nextPair (s.motion.encA, s.motion.encB)))
      (s.motion.residue + 1 = s.cfg.divisor → s.motion.p + 1 = Config.positions →
        ∃ t, exec (.encoderPulse up.1 up.2 order) s = .next t ∧
          t.motion = { afterForward s with lostUnits := inc32 s.motion.lostUnits } ∧
          Raised .positionLimit 0 .trip s.blk.causes t.blk.causes ∧ t.blk.track = s.blk.track ∧
          t.blk.cues = s.blk.cues ∧ t.blk.stations = s.blk.stations ∧ t.mem = s.mem ∧ t.cfg = s.cfg) ∧
      (s.motion.residue - 1 = -(s.cfg.divisor : Int) → s.motion.p = 0 →
        ∃ t, exec (.encoderPulse down.1 down.2 order) s = .next t ∧
          t.motion = { afterBackward s with lostUnits := inc32 s.motion.lostUnits } ∧
          Raised .trackUncertain 0 .trip s.blk.causes t.blk.causes ∧
          t.blk.track.segs.map segmentShape = s.blk.track.segs.map segmentShape ∧
          t.blk.cues = s.blk.cues ∧ t.blk.stations = s.blk.stations ∧ t.mem = s.mem ∧ t.cfg = s.cfg))

/-- The stop-detect timer's expiry halts the line and is a snapshot trigger (R10, R11); the speed interval's expiry takes
the count as the speed (R12); the MARK pulse's ends it (R93). A snapshot trigger begins a write while none is in progress
and the part is ARMED, sets the snapshot-pending flag where one is or the part is ARMING from ARMED, and has no effect
otherwise (R193; that a write is in progress from its beginning on is log 35). -/
def Obligations.MotionTimersAndSnapshotTriggers : Prop :=
  ((∀ (s : State) (n : Nat), s.motion.stopTimer = some n → ∃ t, exec .stopDetectExpiry s = .next t ∧
      FollowsFrom ((s.setMotion { s.motion with state := .halted, stopTimer := none }).setBlk (trigger s.ctx s.blk)) t) ∧
    (∀ s : State, exec .speedIntervalExpiry s =
      .next (s.setMotion { s.motion with speed := min 65535 s.motion.speedCount, speedCount := 0 })) ∧
    ∀ s : State, exec .markPulseExpiry s = .next (s.setBlk (s.blk.setCues { s.blk.cues with markPulse := false }))) ∧
  (∀ (x : Ctx) (b : Blocks),
      let r := b.restart
      (r.part = .armed → Work.snapshot ∉ r.work → x.motion.h + x.cfg.snapshotDistance < Config.positions →
        trigger x b = b.setRestart { r with
          work := r.work ++ [.snapshot], distanceMark := x.motion.h + x.cfg.snapshotDistance }) ∧
      (r.part = .armed → Work.snapshot ∈ r.work → trigger x b = b.setRestart { r with snapshotPending := true }) ∧
      (r.part = .arming true → trigger x b = b.setRestart { r with snapshotPending := true }) ∧
      (b.live = false → trigger x b = b))

/-! ### Latched cause set (01) -/

/-- A raise claim latches a clear kind with the claim's source and level and a count of 1; on a latched kind the count
rises and the source stays, and a TRIP claim of MODULE_LOST raises the level. No other kind changes. A part that is
neither ARMED nor ARMING from ARMED discards the claim (R13). HOLD is asserted exactly while the set holds a HOLD-level
cause, TRIP exactly while it holds a TRIP-level cause (R15). -/
def Obligations.RaiseClaimsAndStopLines : Prop :=
  (∀ (k : CauseKind) (source : Nat) (level : Level) (b : Blocks),
      (b.live = true → Raised k source level b.causes (raiseAt k source level b).causes ∧
        (b.causes.entry k = none → (raiseAt k source level b).report.rewriteOwed = true)) ∧
      (b.live = false → raiseAt k source level b = b)) ∧
  (∀ b : Blocks,
      (b.holdLine = true ↔ ∃ k e, b.causes.entry k = some e ∧ e.level = .hold) ∧
      (b.tripLine = true ↔ ∃ k e, b.causes.entry k = some e ∧ e.level = .trip))

/-- An acknowledge makes one clear claim (R16, R168): a named kind is cleared, or stays latched with a count of 1 while
its standing condition lasts; a kind not named stays as it is. The clearing of OVEN_VENT takes every zone in VENT out of
it, to STANDBY at dwell stage 1 or 2 and to RUN at stage 0, and changes nothing else of the oven (R137). The standing
conditions are those of R8, R29, R39, R72, R107, R114, R151, R152 and R159; no other kind has one. -/
def Obligations.AcknowledgeClearsNamedKinds : Prop :=
  (∀ (s : State) (w : CarriedWord) (v : WriteWord) (decision : Decision), CarriesWrite s w v .status 56 →
    v.enables = 0xF#4 → v.value ≠ 0 →
    ∃ t, exec (.acknowledge decision) s = .next t ∧ t.blk.report.acks = inc16 s.blk.report.acks ∧
      t.blk.track = s.blk.track ∧ t.blk.cues = s.blk.cues ∧ t.blk.stations = s.blk.stations ∧
      t.blk.cache = s.blk.cache ∧ t.blk.field = s.blk.field ∧ t.motion = s.motion ∧ t.cfg = s.cfg ∧
      (∀ k : CauseKind,
        (bit v.value k.number = false → t.blk.causes.entry k = s.blk.causes.entry k) ∧
        (bit v.value k.number = true → t.blk.causes.entry k =
          match s.blk.causes.entry k with
          | none => none
          | some e =>
            if standing s.ctx s.blk k then some ⟨if k = .moduleLost then .hold else e.level, e.source, 1⟩ else none)) ∧
      t.blk.oven = { s.blk.oven with zone := t.blk.oven.zone } ∧
      ∀ z : Fin 8, t.blk.oven.zone[z] =
        if v.value.getLsbD 6 = true ∧ (s.blk.causes.entry .ovenVent).isSome = true ∧ s.blk.oven.zone[z].mode = .vent then
          { s.blk.oven.zone[z] with mode := if s.blk.oven.dwellStage = 0 then .run else .standby }
        else s.blk.oven.zone[z]) ∧
  ∀ (x : Ctx) (b : Blocks),
    (standing x b .trackUncertain = true ↔ x.cfg.backlash < x.motion.h - x.motion.p) ∧
    (standing x b .moduleLost = true ↔ ∃ a : Fin 24, configured x b a = true ∧ b.field.module[a].online = false) ∧
    (standing x b .trackFull = true ↔ b.track.boundary = .deferred false) ∧
    (standing x b .cacheFull = true ↔ b.cache.waiting.isSome = true) ∧
    (standing x b .starvedHold = true ↔ b.track.starvedHold = true) ∧
    (standing x b .register = true ↔ ∃ k : Fin 16, b.stations.station[k].mount.mounted = true ∧
      b.stations.station[k].mount.persistence ≤ b.stations.station[k].outOfReg) ∧
    (standing x b .moduleFault = true ↔ ∃ a : Fin 24, configured x b a = true ∧ b.field.module[a].faultMarker = true) ∧
    (standing x b .outcomeBacklog = true ↔ 4 ≤ b.report.queue.length) ∧
    (∀ k, k ∉ [CauseKind.trackUncertain, .moduleLost, .trackFull, .cacheFull, .starvedHold, .register, .moduleFault,
      .outcomeBacklog] → standing x b k = false) ∧
    (∀ (a : Fin 24) (k : Fin 16), moduleScreen a = some k → configured x b a = b.stations.station[k].mount.mounted) ∧
    ∀ (a : Fin 24) (z : Fin 8), moduleZone a = some z → configured x b a = decide (z.val < x.cfg.zoneCount)

/-- TRACK_UNCERTAIN becoming latched flags every segment held, and nothing else of the track; a raise of it while
latched flags none; a segment admitted later does not carry the flag; the flag reaches the segment's outcome record as
bit 14 of word 4 (R44). -/
def Obligations.UncertaintyFlagsSegmentsHeld : Prop :=
  (∀ (b : Blocks) (source : Nat), b.live = true → b.causes.entry .trackUncertain = none →
    (raise .trackUncertain source b).track = { b.track with segs := b.track.segs.map fun g =>
      { g with flags := { g.flags with positionUncertain := true } } }) ∧
  (∀ (b : Blocks) (source : Nat) (e : Latched), b.causes.entry .trackUncertain = some e →
    (raise .trackUncertain source b).track = b.track) ∧
  (∀ (k : CauseKind) (source : Nat) (level : Level) (b : Blocks), k ≠ .trackUncertain →
    (raiseAt k source level b).track = b.track) ∧
  (∀ (h : Nat) (g : Segment) (t : Track), ∀ n ∈ (joinTrack h g t).segs.drop t.segs.length,
    n.flags.positionUncertain = g.flags.positionUncertain) ∧
  (∀ (s : Stations) (o : StagedOrder) (c : ContOwed) (a : Anchor) (g : Segment) (p : Nat),
    (orderSegment s o p).flags.positionUncertain = false ∧ (continuationSegment c p).flags.positionUncertain = false ∧
    (truncatingSeam a g p).flags.positionUncertain = false ∧ (seamSegment p p).flags.positionUncertain = false ∧
    (Segment.blank p).flags.positionUncertain = false) ∧
  ∀ g : Segment, bit (wordAt (segmentRecord g).words 4) 14 = g.flags.positionUncertain

/-! ### Track unit (02) -/

/-- An active edge of SEAM is ignored while H lies less than a seam length past the last accepted one, counted; otherwise
it is accepted at H, and a seam due at H + U joins the pending seam list in due order, behind those due at or below it, or,
with four held, is dropped with SEAM_OVERFLOW (R32, R33). The other edge has no effect. -/
def Obligations.SeamEdgesJoinTheList : Prop :=
  (∀ s : State, s.blk.live = true →
    let active := !s.cfg.seamFalling
    let tr := s.blk.track
    exec (.seamEdge (!active)) s = .next s ∧
    (debounced s.ctx tr = true → ∃ t, exec (.seamEdge active) s = .next t ∧
      FollowsFrom (s.setBlk (s.blk.setTrack { tr with ignoredEdges := inc16 tr.ignoredEdges })) t) ∧
    (debounced s.ctx tr = false → tr.seams.length < 4 → s.motion.h + s.cfg.detectorDistance < Config.positions →
      ∃ t, exec (.seamEdge active) s = .next t ∧
        t.blk.track = { tr with
          debounce := some s.motion.h, seams := insertSeam (s.motion.h + s.cfg.detectorDistance) tr.seams } ∧
        t.blk.causes = s.blk.causes ∧ t.blk.cues = s.blk.cues ∧ t.blk.cache = s.blk.cache ∧ t.mem = s.mem ∧
        t.motion = s.motion) ∧
    (debounced s.ctx tr = false → 4 ≤ tr.seams.length → ∃ t, exec (.seamEdge active) s = .next t ∧
      t.blk.track = { tr with debounce := some s.motion.h, droppedSeams := inc16 tr.droppedSeams } ∧
      Raised .seamOverflow 0 .trip s.blk.causes t.blk.causes ∧ t.blk.cues = s.blk.cues ∧ t.mem = s.mem)) ∧
  (∀ (x : Ctx) (t : Track), debounced x t = true ↔ ∃ r, t.debounce = some r ∧ x.motion.h < r + x.cfg.seamLength) ∧
  ∀ (d : Nat) (l : List PendingSeam), l.Pairwise (fun a b => a.due ≤ b.due) →
    insertSeam d l = l.filter (fun e => decide (e.due ≤ d)) ++ ⟨d, none⟩ :: l.filter (fun e => decide (d < e.due)) ∧
    (insertSeam d l).Pairwise fun a b => a.due ≤ b.due

/-- At the due end of the ENTERING segment, and at H while its boundary is DEFERRED, with no seam and no retirement due,
room for the successor, no continuation owed and no order staged, the segment closes at H and a STARVED BLANK follows with
the next number; STARVED_HOLD or STARVED is raised (R25, R27, R28, R29, R30, R39). Behind a BLANK segment a screen away from
entry keeps its want and its machine, for no input of its want changes (R103). A boundary that comes due is placed
beyond the ENTERING head and at H or below; that a due end not beyond the head, left by a warm arming's negative
correction, is moved past it, and that a DEFERRED boundary is not taken on fabric recorded as passed, is log 46, and that
a DEFERRED boundary is taken once at an H advance is log 16 (DEDUCED): the model's choices. -/
def Obligations.BoundaryWithoutOrderStarves : Prop :=
  (∀ (x : Ctx) (b : Blocks) (g : Segment) (old : List Segment),
    let h := x.motion.h
    let tr := b.track
    Entering x b old g → BoundaryAtH x tr →
    dueSeam h tr = none → entriesNeeded g ≤ tr.free → g.contOwed = none → b.plan.staged = none →
    let b' := trackAdvance x b
    let hold := g.flags.holdAtEnd || tr.starvedHold
    b'.track.segs.map segmentShape = old.map segmentShape ++
      [segmentShape (closeSeg h g), (tr.seqCounter + 1, .blank, .starved, h, none)] ∧
    b'.track.seqCounter = tr.seqCounter + 1 ∧ b'.track.boundary = .opened none ∧
    b'.track.starvedHold = hold ∧ b'.track.seams = tr.seams ∧ b'.plan = b.plan ∧
    (b'.causes.entry (if hold then .starvedHold else .starved)).isSome = true ∧
    (g.kind = .blank → ∀ k : Fin 16, 0 < x.cfg.screenOffset[k] →
      b'.stations.station[k] = b.stations.station[k])) ∧
  ∀ (h p : Nat) (tried : Bool) (t : Track) (g : Segment), t.entering = some g → dueBoundary h tried t = some p →
    g.head < p ∧ p ≤ h ∧ (∀ d, t.boundary = .opened (some d) → g.head < d → p = d)

/-- The boundary of the ENTERING segment, at its due end and at H while DEFERRED, with no seam and no retirement due. With
room for the successor and no continuation owed, a staged order that is ready is admitted at H, its planned end the next
due end, and the plan reader releases it (R24, R25, R28, R41, R60); for one whose setting is being fetched the boundary
becomes WAITING at H (R25); for one that waits for a cache entry it becomes DEFERRED for the cache, the segment EXTENDED
(R30). With no room it becomes DEFERRED for the track, whatever would succeed: the segment is EXTENDED, and TRACK_FULL is
raised as the boundary comes into that state (R29; log 16, DEDUCED). A WAITING boundary is resolved at its own position,
by the order where its setting is ready, by a STARVED BLANK where the order is rejected, LATE where H has passed it (R31).
That a DEFERRED boundary is not taken on fabric recorded as passed is log 46, the model's choice. -/
def Obligations.BoundaryAdmitsTheStagedOrder : Prop :=
  (∀ (x : Ctx) (b : Blocks) (g : Segment) (old : List Segment),
    let h := x.motion.h
    let tr := b.track
    let b' := trackAdvance x b
    let extended := { g with flags := { g.flags with extended := true } }
    Entering x b old g → BoundaryAtH x tr → dueSeam h tr = none →
    (∀ (o : StagedOrder) (e : Nat), entriesNeeded g ≤ tr.free → g.contOwed = none → b.plan.staged = some o →
      o.isReady = true → PlannedEnd b.stations o h e →
      b'.track.segs.map segmentShape = old.map segmentShape ++ [segmentShape (closeSeg h g),
        (tr.seqCounter + 1, if o.kind = .blankLength then .blank else .print, .order, h, none)] ∧
      b'.track.seqCounter = tr.seqCounter + 1 ∧ b'.track.starvedHold = false ∧
      b'.track.boundary = .opened (if o.kind = .printUntilSeam then none else some e) ∧
      b'.plan = { b.plan with staged := none, take := .idle }) ∧
    (∀ o, entriesNeeded g ≤ tr.free → g.contOwed = none → b.plan.staged = some o → o.state = .fetching →
      b'.track = { tr with boundary := .waiting h, segs := b'.track.segs } ∧
      b'.track.segs.map (fun g => { g with marks := .replicate 16 ⟨.notReached, false⟩ }) =
        tr.segs.map (fun g => { g with marks := .replicate 16 ⟨.notReached, false⟩ }) ∧
      b'.plan = b.plan ∧ b'.causes = b.causes) ∧
    (∀ o, entriesNeeded g ≤ tr.free → g.contOwed = none → b.plan.staged = some o → o.state = .waitingEntry →
      b'.track = { tr with boundary := .deferred true, segs := old ++ [extended] } ∧ b'.plan = b.plan ∧
      b'.causes = b.causes) ∧
    (tr.free < entriesNeeded g → b'.track = { tr with boundary := .deferred false, segs := old ++ [extended] } ∧
      b'.plan = b.plan ∧ (tr.boundary = .deferred false → b'.causes = b.causes) ∧
      (tr.boundary ≠ .deferred false → Raised .trackFull 0 .hold b.causes b'.causes))) ∧
  ∀ (x : Ctx) (b : Blocks) (g : Segment) (old : List Segment) (p : Nat),
    let tr := b.track
    Entering x b old g → tr.boundary = .waiting p → g.head < p → p ≤ x.motion.h →
    (∀ (o : StagedOrder) (e : Nat), b.plan.staged = some o → o.isReady = true → PlannedEnd b.stations o p e →
      let b' := resolveReady x b
      b'.track.segs.map segmentShape = old.map segmentShape ++ [segmentShape (closeSeg p g),
        (tr.seqCounter + 1, if o.kind = .blankLength then .blank else .print, .order, p, none)] ∧
      b'.track.boundary = .opened (if o.kind = .printUntilSeam then none else some e) ∧
      (∃ s, b'.track.entering = some s ∧ (p < x.motion.h → s.flags.late = true)) ∧ b'.track.starvedHold = false ∧
      b'.plan = { b.plan with staged := none, take := .idle }) ∧
    let b' := resolveRejected x b
    let hold := g.flags.holdAtEnd || tr.starvedHold
    b'.track.segs.map segmentShape = old.map segmentShape ++
      [segmentShape (closeSeg p g), (tr.seqCounter + 1, .blank, .starved, p, none)] ∧
    b'.track.boundary = .opened none ∧ (∃ s, b'.track.entering = some s ∧ (p < x.motion.h → s.flags.late = true)) ∧
    b'.track.starvedHold = hold ∧ (b'.causes.entry (if hold then .starvedHold else .starved)).isSome = true

/-- A PENDING seam that comes due over the ENTERING segment, at an advance with no retirement due.
- Over a PRINT or BLANK segment whose boundary lies beyond or is DEFERRED, an entry free: it closes at the seam's head, with
  SPLIT where its planned end lies beyond, and a SEAM segment of the seam length follows, carrying the continuation of a
  PRINT order with the minimum order length left, one reference claimed for it (none where the segment's restore claim has
  failed, R196), or else HOLD_AT_END (R34, R36). No HEAD cue of the segment at or past its new length stays queued, and no
  other cue beyond H leaves (R88).
- Over a WAITING boundary: a STARVED BLANK is first admitted at its position, and is truncated (R31, R34).
- Inside a SEAM segment: its due end moves to the seam's tail, and a continuation owed is shortened (R35).
- At the due end, an entry free: the segment closes without SPLIT and a SEAM segment follows; it takes HOLD_AT_END, or a
  SEAM segment's continuation owed, shortened by one seam length (R37).
- With no entry free, over any other than a SEAM segment: it is absorbed, with SEAM_UNLIFTED (R38).
At the due end of a SEAM segment with a continuation owed, an entry free and no seam due, the continuation is admitted
there, with its order, its setting and its planned end (R25, R28). -/
def Obligations.SeamTruncatesTheEnteringSegment : Prop :=
  (∀ (x : Ctx) (b : Blocks) (g : Segment) (old : List Segment) (e : PendingSeam) (rest : List PendingSeam),
    let h := x.motion.h
    let tr := b.track
    let tail := h + x.cfg.seamLength
    let b' := trackAdvance x b
    let split (s : Segment) := s.flags.split
    Entering x b old g → (∀ s ∈ tr.segs, s.seq ≤ tr.seqCounter) → SeamAtH x tr e rest →
    (g.kind ≠ .seam → 0 < tr.free → (b.plan.staged = none ∨ g.origin ≠ .starved ∨ tr.boundary ≠ .opened none) →
      (tr.boundary = .opened none ∨ (∃ d, tr.boundary = .opened (some d) ∧ h < d) ∨ ∃ c, tr.boundary = .deferred c) →
      let left (d : Nat) : Int := (d : Int) - h - x.cfg.seamLength
      let short (q : PendingCue) := q.seq = g.seq ∧ q.cue.tail = false ∧ ((h - g.head : Nat) : Int) ≤ q.cue.offset
      b'.track.segs.map segmentShape = old.map segmentShape ++
        [segmentShape (closeSeg h g), (tr.seqCounter + 1, .seam, .seam, h, none)] ∧
      b'.track.boundary = .opened (some tail) ∧ b'.track.seams = rest ∧
      (∀ s ∈ b'.track.segs, s.seq = g.seq → split s = (split g || match g.plannedEnd with
        | some d => decide (h < d)
        | none => false)) ∧
      (∀ d, g.kind = .print → g.plannedEnd = some d → (x.cfg.minOrder : Int) ≤ left d →
        let owed : ContOwed := ⟨g.orderId.getD 0, g.tag.getD 0, g.setting.filter (fun r => decide (r.link ≠ .lost)), d,
          (left d).toNat, g.flags.holdAtEnd⟩
        (∃ s, b'.track.entering = some s ∧ s.contOwed = some owed ∧ s.flags.holdAtEnd = false) ∧
        (∀ r i, g.setting = some r → r.counted = some i → b'.cache = { b.cache with
          entries := b.cache.entries.set i { b.cache.entries[i] with count := b.cache.entries[i].count + 1 } }) ∧
        (g.setting.bind SettingRef.counted = none → b'.cache = b.cache)) ∧
      (g.kind = .blank ∨ (∀ d, g.plannedEnd = some d → left d < x.cfg.minOrder) →
        (∃ s, b'.track.entering = some s ∧ s.contOwed = none ∧ s.flags.holdAtEnd = g.flags.holdAtEnd) ∧
        b'.cache = b.cache) ∧
      (g.kind = .print → (∀ q ∈ b'.cues.queue, ¬ short q) ∧
        ∀ q ∈ b.cues.queue, h < q.due → ¬ short q → q ∈ b'.cues.queue)) ∧
    (∀ p, tr.boundary = .waiting p → g.head < p → p < h → 2 ≤ tr.free → tr.seqCounter + 2 < 4294967296 →
      b'.track.segs.map segmentShape = old.map segmentShape ++ [segmentShape (closeSeg p g),
        (tr.seqCounter + 1, .blank, .starved, p, some (h - p)), (tr.seqCounter + 2, .seam, .seam, h, none)] ∧
      b'.track.boundary = .opened (some tail) ∧ b'.track.seams = rest ∧ b'.plan = b.plan) ∧
    (∀ d, g.kind = .seam → tr.boundary = .opened (some d) → g.plannedEnd = some d → h < d →
      let owed := g.contOwed.bind fun c => Shortened x.cfg c ((tail : Int) - d)
      let dropped := (g.contOwed.filter fun _ => owed.isNone).map (·.holdAtEnd)
      b'.track = { tr with seams := rest, boundary := .opened (some tail), segs := old ++ [{ g with
        plannedEnd := some tail, contOwed := owed
        flags := { g.flags with holdAtEnd := g.flags.holdAtEnd || dropped.getD false } }] }) ∧
    (tr.boundary = .opened (some h) → 0 < tr.free →
      b'.track.segs.map segmentShape = old.map segmentShape ++
        [segmentShape (closeSeg h g), (tr.seqCounter + 1, .seam, .seam, h, none)] ∧
      b'.track.boundary = .opened (some tail) ∧ b'.track.seams = rest ∧
      (∀ s ∈ b'.track.segs, s.seq = g.seq → split s = split g) ∧
      (g.kind ≠ .seam → ∃ s, b'.track.entering = some s ∧ s.contOwed = none ∧ s.flags.holdAtEnd = g.flags.holdAtEnd) ∧
      (∀ c, g.kind = .seam → g.contOwed = some c → ∃ s, b'.track.entering = some s ∧
        s.contOwed = Shortened x.cfg c x.cfg.seamLength ∧
        s.flags.holdAtEnd = (c.holdAtEnd && (Shortened x.cfg c x.cfg.seamLength).isNone))) ∧
    (g.kind ≠ .seam → tr.free = 0 → (b.plan.staged = none ∨ g.origin ≠ .starved ∨ tr.boundary ≠ .opened none) →
      (tr.boundary = .opened none ∨ ∃ d, tr.boundary = .opened (some d) ∧ h < d) →
      b'.track = { tr with
        segs := old ++ [{ g with flags := { g.flags with seamUnlifted := true, extended := true } }]
        seams := { e with absorbedBy := some g.seq } :: rest
        boundary := match tr.boundary with
          | .opened (some d) => .opened (some (max d tail))
          | _ => .opened none
        absorbedSeams := inc16 tr.absorbedSeams } ∧
      Raised .seamUnlifted 0 .trip b.causes b'.causes)) ∧
  ∀ (x : Ctx) (b : Blocks) (g : Segment) (old : List Segment) (c : ContOwed),
    let h := x.motion.h
    let tr := b.track
    let b' := trackAdvance x b
    Entering x b old g → tr.boundary = .opened (some h) → dueSeam h tr = none → g.kind = .seam → g.contOwed = some c →
    0 < tr.free → h < c.plannedEnd →
    b'.track.segs.map segmentShape = old.map segmentShape ++
      [segmentShape (closeSeg h g), (tr.seqCounter + 1, .print, .continuation, h, none)] ∧
    b'.track.boundary = .opened (some c.plannedEnd) ∧ b'.plan = b.plan ∧ b'.cache = b.cache ∧
    ∃ s, b'.track.entering = some s ∧ s.orderId = some c.orderId ∧ s.tag = some c.tag ∧ s.setting = c.setting ∧
      s.plannedEnd = some c.plannedEnd ∧ s.flags.holdAtEnd = c.holdAtEnd

/-- At an H advance exactly the closed segments retire whose tail lies the exit offset or more behind H, before any other
matter of the track (R23, R42), and their records join the queue oldest first (R160). One that retires leaves the track
with its ABSORBED seams, its pending cues are cancelled and counted, its reference on the setting cache is released, a
snapshot is triggered, and one segment outcome is handed to the report unit: queued, or lost with OUTCOME_LOST where eight
records wait (R42, R43, R69, R77, R89, R159, R160, R193). The record shows the segment's setting number and version with
their presence bit, and none of a segment whose restore claim failed (R158, R196; that one whose claim is pending still
shows its number is log 22, DEDUCED). Where no SEAM segment and no ABSORBED seam leaves with it, no station changes (R103). -/
def Obligations.RetirementHandsTheSegmentOn : Prop :=
  (∀ (x : Ctx) (entering : Bool) (b : Blocks),
    let gone (g : Segment) : Prop := ∃ n, g.length = some n ∧ g.head + n + x.cfg.exitOffset ≤ x.motion.h
    let b' := retireAll x b
    takeAdvance x entering b .track = takeDue x dueFuel false (starvedCheck x b') ∧
    (∀ g, retires x g = true ↔ gone g) ∧
    (b.track.segs.Pairwise (fun g g' => g.seq ≠ g'.seq) →
      b'.track.segs = b.track.segs.filter (fun g => !retires x g) ∧
      (b.report.queue.length + (b.track.segs.filter (retires x)).length ≤ 8 →
        b'.report.queue = b.report.queue ++ (b.track.segs.filter (retires x)).map segmentRecord))) ∧
  ∀ (x : Ctx) (b : Blocks) (g : Segment), b.live = true →
    let b' := retire x b g
    b'.track.segs = b.track.segs.filter (fun s => s.seq ≠ g.seq) ∧
    b'.track.seams = b.track.seams.filter (fun e => e.absorbedBy ≠ some g.seq) ∧
    b'.cues.queue = b.cues.queue.filter (fun p => p.seq ≠ g.seq) ∧
    b'.cues.cancelled = satAdd 65535 b.cues.cancelled (b.cues.queue.filter fun p => p.seq = g.seq).length ∧
    b'.restart = (trigger x b).restart ∧
    (g.setting.bind SettingRef.counted = none → b'.cache = b.cache ∧ b'.plan = b.plan) ∧
    (∀ e, g.setting.bind SettingRef.counted = some e → b.cache.waiting = none →
      let c := b.cache.entries[e]
      b'.plan = b.plan ∧
      (1 < c.count → b'.cache = { b.cache with entries := b.cache.entries.set e { c with count := c.count - 1 } }) ∧
      (c.count = 1 → b'.cache = { b.cache with
        entries := b.cache.entries.set e (if c.state = .superseded
          then { c with state := .free, count := 0, restarts := 0, contents := none } else { c with count := 0 })
        useOrder := b.cache.useOrder.filter (· ≠ e) ++ [e] })) ∧
    ((∀ s ∈ b.track.segs, s.seq = g.seq → s.kind ≠ .seam) → (∀ e ∈ b.track.seams, e.absorbedBy ≠ some g.seq) →
      b'.stations = b.stations) ∧
    b'.report.retired = b.report.retired + 1 ∧
    (b.report.queue.length < 8 → b'.report.queue = b.report.queue ++ [segmentRecord g]) ∧
    (8 ≤ b.report.queue.length → b'.report.queue = b.report.queue ∧
      b'.report.outcomesLost = b.report.outcomesLost + 1 ∧ (b'.causes.entry .outcomeLost).isSome = true) ∧
    (let words := (segmentRecord g).words
     (bit (wordAt words 15) 9 = true ↔ ∃ r, g.setting = some r ∧ r.link ≠ .lost) ∧
     ∀ r, g.setting = some r → r.link ≠ .lost →
       fld (wordAt words 4) 0 9 = r.number % 512 ∧ fld (wordAt words 3) 16 16 = r.version % 65536)

/-! ### Plan reader (03) -/

/-- A valid closing word at the post index posts its slot: the posted count rises by 1, the post index advances around
the ring, and the word stays in memory (R50). -/
def Obligations.ClosingWordAtThePostIndexPosts : Prop :=
  ∀ (s : State) (w : CarriedWord) (v : WriteWord) (off : Nat) (decision : Decision), CarriesWrite s w v .plan off →
    off % 4 = 3 → v.enables = 0xF#4 → validClosing v.value = true → off / 4 = s.blk.plan.postIndex →
    ∃ t, exec (.planWrite decision) s = .next t ∧
      WordLeaves s w v (s.blk.setPlan { s.blk.plan with
        posted := s.blk.plan.posted + 1
        postIndex := if s.blk.plan.postIndex + 1 < s.cfg.planSlots then s.blk.plan.postIndex + 1 else 0 }) t

/-- A valid closing word at another slot that is not protected posts nothing and raises PLAN_OUT_OF_ORDER with the slot
number; the word passes to memory, the plan reader stays, and the kind has no standing condition (R51). -/
def Obligations.ClosingWordElsewhereIsOutOfOrder : Prop :=
  (∀ (s : State) (w : CarriedWord) (v : WriteWord) (off : Nat) (decision : Decision), CarriesWrite s w v .plan off →
    off % 4 = 3 → v.enables = 0xF#4 → validClosing v.value = true → off / 4 ≠ s.blk.plan.postIndex →
    s.blk.live = true →
    ∃ t, exec (.planWrite decision) s = .next t ∧ WordLeaves s w v (raise .planOutOfOrder (off / 4) s.blk) t ∧
      Raised .planOutOfOrder (off / 4) .report s.blk.causes t.blk.causes ∧
      t.blk.plan.posted = s.blk.plan.posted ∧ t.blk.plan.postIndex = s.blk.plan.postIndex ∧
      t.blk.plan.takeIndex = s.blk.plan.takeIndex) ∧
  ∀ (x : Ctx) (b : Blocks), standing x b .planOutOfOrder = false

/-- A full-word nonzero write that fails the check, to word 3 of a slot that is not protected, posts nothing and raises
PLAN_BAD_CLOSE with the slot number, at the post index or not; the write passes to memory. A full-word zero and a
partial write there raise nothing and pass, whatever word memory then holds. The kind has no standing condition
(R52). -/
def Obligations.BadClosingWordsPostNothing : Prop :=
  (∀ (s : State) (w : CarriedWord) (v : WriteWord) (off : Nat) (decision : Decision), CarriesWrite s w v .plan off →
    off % 4 = 3 → s.blk.live = true →
    (v.enables = 0xF#4 → v.value ≠ 0 → validClosing v.value = false →
      ∃ t, exec (.planWrite decision) s = .next t ∧ WordLeaves s w v (raise .planBadClose (off / 4) s.blk) t ∧
        Raised .planBadClose (off / 4) .report s.blk.causes t.blk.causes) ∧
    (v.enables ≠ 0xF#4 ∨ v.value = 0 →
      ∃ t, exec (.planWrite decision) s = .next t ∧ WordLeaves s w v s.blk t)) ∧
  ∀ (x : Ctx) (b : Blocks), standing x b .planBadClose = false

/-- A word that falls in a protected slot is dropped: memory keeps its bytes, the drop is counted, and PLAN_OVERWRITE is
raised with the slot number (R53, R176). The protected slots are the posted ones: from the take index on around the ring,
as many as the posted count says (R53). -/
def Obligations.ProtectedSlotsDropWrites : Prop :=
  (∀ (x : Ctx) (p : Plan) (k : Nat), k < x.cfg.planSlots → p.takeIndex < x.cfg.planSlots → p.posted ≤ x.cfg.planSlots →
    (planProtected x p k = true ↔ ∃ j < p.posted, (p.takeIndex + j) % x.cfg.planSlots = k)) ∧
  (∀ (x : Ctx) (b : Blocks) (a : HostAccess) (i : Nat) (v : WriteWord) (off : Nat), hostWriteWord a i = some v →
    v.enables ≠ 0 → windowOf x b (hostWordAt a i) = (.plan, off) →
    judgeWord x b a i = if planProtected x b.plan (off / 4) then .dropPlan (off / 4) else .pass) ∧
  ∀ (s : State) (w : CarriedWord) (slot : Nat) (decision : Decision), s.blk.path.carried = some w → w.judged = .dropPlan slot →
    s.blk.live = true →
    ∃ t, exec (.planWrite decision) s = .next t ∧ t.mem = s.mem ∧
      t.blk.path.dropped = inc32 s.blk.path.dropped ∧ FollowsButPath (s.setBlk (raise .planOverwrite slot s.blk)) t ∧
      Raised .planOverwrite slot .report s.blk.causes t.blk.causes

/-- The slot read of a take returns: the order is validated, and the freeing write follows (R54, R55). The checks run in
order: the closing word, the kind, the length, the setting number (R55). A valid order is the one written in the slot: its
kind, ALIGN, HOLD_AT_END and setting number from word 0, its length, its tag, and its identifier (R48, R58). -/
def Obligations.PlanReadIsValidated : Prop :=
  (∀ (s : State) (a : Access) (decision : Decision), CarriesAccess s a → a.kind = .planRead →
      s.blk.plan.take = .reading →
      ∃ t, exec (.planReadReturned decision) s = .next t ∧
        AccessLeaves s a (s.blk.setPlan { s.blk.plan with
          take := .freeing
          result := some (validateOrder s.cfg.minOrder s.blk.plan.takeIndex (readBy s a)) }) t) ∧
  (∀ (minOrder slot : Nat) (ws : List Word),
      let id := closingId (wordAt ws 3)
      let w0 := wordAt ws 0
      let code := (w0.extractLsb' 0 4).toNat
      let number := (w0.extractLsb' 8 10).toNat
      let length := (wordAt ws 1).toNat
      (validClosing (wordAt ws 3) = false → validateOrder minOrder slot ws = .invalid id .badClose) ∧
      (validClosing (wordAt ws 3) = true →
        (code ∉ [1, 2, 3] → validateOrder minOrder slot ws = .invalid id .badKind) ∧
        (code ∈ [1, 3] → length < minOrder ∨ 2147483648 < length →
          validateOrder minOrder slot ws = .invalid id .badLength) ∧
        (code = 2 ∨ code = 1 ∧ minOrder ≤ length ∧ length ≤ 2147483648 → 511 < number →
          validateOrder minOrder slot ws = .invalid id .badSettingNumber) ∧
        ((code = 2 ∧ number ≤ 511) ∨ (code = 1 ∧ number ≤ 511 ∧ minOrder ≤ length ∧ length ≤ 2147483648) ∨
            (code = 3 ∧ minOrder ≤ length ∧ length ≤ 2147483648) →
          ∃ o, validateOrder minOrder slot ws = .valid o ∧ o.orderId = id ∧ o.length = length ∧ o.slot = slot ∧
            o.settingNumber = number ∧ o.tag = wordAt ws 2 ∧ o.kind.code = code ∧
            o.align = w0.getLsbD 24 ∧ o.holdAtEnd = w0.getLsbD 25)))

/-- The freeing write completes: memory takes the zero, the posted count falls, the take index advances, the taken count
rises; a valid BLANK_LENGTH order is staged, an invalid order is rejected with ORDER_REJECTED and a record (R56, R57,
R58). -/
def Obligations.FreeingWriteEndsTheTake : Prop :=
  ∀ (s : State) (a : Access) (decision : Decision), CarriesAccess s a → a.kind = .freeingWrite → s.blk.plan.take = .freeing →
    s.blk.live = true →
    let p := s.blk.plan
    let p' := { p with
      posted := p.posted - 1, takeIndex := if p.takeIndex + 1 < s.cfg.planSlots then p.takeIndex + 1 else 0,
      taken := inc32 p.taken, take := .idle, result := none }
    (∀ o, p.result = some (.valid o) → o.kind = .blankLength → ∃ t, exec (.freeingWriteComplete decision) s = .next t ∧
      AccessLeaves s a (s.blk.setPlan { p' with take := .staged, staged := some o }) t) ∧
    (∀ o, p.result = some (.valid o) → o.kind ≠ .blankLength → ∃ t, exec (.freeingWriteComplete decision) s = .next t ∧
      AccessLeaves s a
        (lookupStaged o.settingNumber (s.blk.setPlan { p' with take := .staged, staged := some o })) t) ∧
    (∀ id reason, p.result = some (.invalid id reason) → ∃ t, exec (.freeingWriteComplete decision) s = .next t ∧
      t.mem = s.mem.carry a ∧ PlanFollows { p' with rejected := inc32 p.rejected } t.blk.plan ∧
      (t.blk.causes.entry .orderRejected).isSome = true ∧ t.blk.track = s.blk.track ∧
      t.blk.report.rejections = s.blk.report.rejections + 1 ∧
      (s.blk.report.queue.length < 8 → t.blk.report.queue = s.blk.report.queue ++
        [rejectionRecord (s.blk.report.rejections + 1) id p.takeIndex reason]))

/-! ### Setting cache (04) -/

/-- A lookup hits the current entry, the one FETCHING or READY under its number, begins a fetch into a chosen entry, or
waits with CACHE_FULL (R68, R69, R71); the staged order is told READY, FETCHING or WAITING_ENTRY, with the entry and its
version (R59, R71), and the entry moves to the end of the use order (R70). The entry chosen is the lowest FREE one, else
the first in the use order that is READY with a count of 0 (R70). -/
def Obligations.LookupHitsFetchesOrWaits : Prop :=
  (∀ (n : Nat) (b : Blocks), b.live = true →
    let c := b.cache
    let b' := lookupStaged n b
    (∀ e, c.current n = some e → b'.cache = { c with
        entries := c.entries.set e { c.entries[e] with count := c.entries[e].count + 1 }
        useOrder := c.useOrder.filter (· ≠ e) ++ [e] } ∧
      b'.causes = b.causes ∧ b'.plan = { b.plan with staged := b.plan.staged.map fun o => { o with
        state := if c.entries[e].state = .ready then .ready else .fetching
        ref := some (e, c.entries[e].version) } }) ∧
    (∀ e, c.current n = none → c.choose = some e → b'.cache = { c with
        entries := c.entries.set e ⟨.fetching, n, (c.entries[e].version + 1) % 65536, 1, 0, none⟩
        useOrder := c.useOrder.filter (· ≠ e) ++ [e]
        fetchQueue := c.fetchQueue ++ [e], fetches := inc16 c.fetches } ∧
      b'.causes = b.causes ∧ b'.plan = { b.plan with staged := b.plan.staged.map fun o => { o with
        state := .fetching, ref := some (e, (c.entries[e].version + 1) % 65536) } }) ∧
    (c.current n = none → c.choose = none → b'.cache = { c with waiting := some n } ∧
      Raised .cacheFull 0 .hold b.causes b'.causes ∧
      b'.plan = { b.plan with staged := b.plan.staged.map fun o => { o with state := .waitingEntry, ref := none } })) ∧
  ∀ (c : Cache),
    (∀ (n : Nat) (e : Fin 8), c.current n = some e →
      c.entries[e].number = n ∧ (c.entries[e].state = .fetching ∨ c.entries[e].state = .ready)) ∧
    (∀ n, c.current n = none → ∀ e : Fin 8, c.entries[e].number = n →
      c.entries[e].state ≠ .fetching ∧ c.entries[e].state ≠ .ready) ∧
    (∀ e : Fin 8, c.entries[e].state = .free → (∀ e' : Fin 8, e' < e → c.entries[e'].state ≠ .free) →
      c.choose = some e) ∧
    ((∀ e : Fin 8, c.entries[e].state ≠ .free) →
      let unused (e : Fin 8) : Prop := c.entries[e].state = .ready ∧ c.entries[e].count = 0
      (∀ before e after, c.useOrder = before ++ e :: after → unused e → (∀ e' ∈ before, ¬ unused e') →
        c.choose = some e) ∧
      ((∀ e ∈ c.useOrder, ¬ unused e) → c.choose = none))

/-- A burst of a fetch, not its last, returns: the words are kept (R73). The last one returns: a valid record makes the
entry READY with its contents; one that fails a check frees the entry, counts the failure and is recorded as the last
setting fault (R67, R73). No lookup waits. -/
def Obligations.FetchBurstsEndReadyOrFree : Prop :=
  (∀ (s : State) (a : Access) (decision : Decision) (e : Fin 8) (rest : List (Fin 8)), CarriesAccess s a →
      a.kind = .settingRead → s.blk.cache.fetchQueue = e :: rest → s.blk.cache.words.length + a.count < 64 →
      ∃ t, exec (.settingBurstReturned decision) s = .next t ∧
        AccessLeaves s a (s.blk.setCache { s.blk.cache with words := s.blk.cache.words ++ readBy s a }) t) ∧
  (∀ (s : State) (a : Access) (decision : Decision) (e : Fin 8) (rest : List (Fin 8)), CarriesAccess s a →
      a.kind = .settingRead → s.blk.cache.fetchQueue = e :: rest → e ∉ rest → s.blk.cache.waiting = none →
      64 ≤ s.blk.cache.words.length + a.count →
      let n := s.blk.cache.entries[e].number
      let ws := s.blk.cache.words ++ readBy s a
      let judged := validateSetting s.cfg.screenCount s.cfg.zoneCount s.blk.stations.station n ws
      ∃ t, exec (.settingBurstReturned decision) s = .next t ∧ t.mem = s.mem.carry a ∧
        t.blk.cache.fetchQueue = rest ∧ t.blk.cache.words = [] ∧
        (∀ e', e' ≠ e → t.blk.cache.entries[e'] = s.blk.cache.entries[e']) ∧
        (∀ v, judged = .ok v → t.blk.cache.entries[e] =
          { s.blk.cache.entries[e] with state := .ready, restarts := 0, contents := some v }) ∧
        (∀ d c, judged = .error (d, c) → t.blk.cache.entries[e].state = .free ∧ t.blk.cache.entries[e].count = 0 ∧
          t.blk.cache.lastFault = some ⟨n, d, c⟩ ∧ t.blk.cache.failures = inc16 s.blk.cache.failures))

/-- A write into a record, of any width: it supersedes a READY entry, freeing it where nothing counts on it; it restarts a
fetch of fewer than three restarts; it ends a fetch of three, freeing its entry and rejecting a staged order that claims it
with SETTING_UNSTABLE (no restored segment claims it, no lookup waits); and it has no effect on a number with no current
entry (R61, R69, R70, R74, R75). That the supersede count rises for an entry of count 0 too is log 36 (DEDUCED). -/
def Obligations.SettingsWritesReachTheCache : Prop :=
  ∀ (s : State) (w : CarriedWord) (v : WriteWord) (off : Nat) (decision : Decision), CarriesWrite s w v .settings off →
    let c := s.blk.cache
    (∀ e, c.current (off / 64) = some e → c.entries[e].state = .ready →
      ∃ t, exec (.settingsWrite decision) s = .next t ∧
        WordLeaves s w v (s.blk.setCache { c with
          entries := c.entries.set e (if c.entries[e].count = 0
            then { c.entries[e] with state := .free, count := 0, restarts := 0, contents := none }
            else { c.entries[e] with state := .superseded })
          supersedes := inc16 c.supersedes }) t) ∧
    (∀ e, c.current (off / 64) = some e → c.entries[e].state = .fetching → c.entries[e].restarts < 3 →
      ∃ t, exec (.settingsWrite decision) s = .next t ∧
        WordLeaves s w v (s.blk.setCache { c with
          entries := c.entries.set e { c.entries[e] with restarts := c.entries[e].restarts + 1 }
          words := if c.fetchQueue.head? = some e then [] else c.words
          restarts := inc16 c.restarts }) t) ∧
    (∀ e, c.current (off / 64) = some e → c.entries[e].state = .fetching → 3 ≤ c.entries[e].restarts →
      c.waiting = none → (∀ g ∈ s.blk.track.segs, (∀ r, g.setting = some r → r.link ≠ .restoring e) ∧
        ∀ o r, g.contOwed = some o → o.setting = some r → r.link ≠ .restoring e) →
      let c' := { c with
        entries := c.entries.set e { c.entries[e] with state := .free, count := 0, restarts := 0, contents := none }
        fetchQueue := c.fetchQueue.filter (· ≠ e)
        words := if c.fetchQueue.head? = some e then [] else c.words
        useOrder := if 0 < c.entries[e].count then c.useOrder.filter (· ≠ e) ++ [e] else c.useOrder }
      let p := s.blk.plan
      ∃ t, exec (.settingsWrite decision) s = .next t ∧
        ((∀ o, p.staged = some o → o.state ≠ .fetching ∨ o.ref.map (·.1) ≠ some e) →
          WordLeaves s w v (s.blk.setCache c') t) ∧
        ∀ o, p.staged = some o → o.state = .fetching → o.ref.map (·.1) = some e →
          (∀ q, s.blk.track.boundary ≠ .waiting q) →
          t.mem = s.mem.writeWord w.addr v.enables v.value ∧ t.blk.cache = c' ∧ t.blk.track = s.blk.track ∧
          PlanFollows { p with staged := none, take := .idle, rejected := inc32 p.rejected } t.blk.plan ∧
          (t.blk.causes.entry .orderRejected).isSome = true ∧
          t.blk.report.rejections = s.blk.report.rejections + 1 ∧
          (s.blk.report.queue.length < 8 → t.blk.report.queue = s.blk.report.queue ++
            [rejectionRecord (s.blk.report.rejections + 1) o.orderId o.slot .settingUnstable])) ∧
    (c.current (off / 64) = none → ∃ t, exec (.settingsWrite decision) s = .next t ∧ WordLeaves s w v s.blk t)

/-! ### Cue queue (05) -/

/-- At an H advance every queued cue due at or below H leaves the queue, and fires or is cancelled, in queue order (R87).
An insertion attempt raises the insertion count. A cue is placed from its reference edge by its offset and its target's
(R84). One beyond H joins the queue in due order behind those due at or below its position, late or not by its batch's
bound: H for a batch of an H advance, H + 1 for any other; one at or below H is fired or cancelled at once; with 64 held
it is dropped, its segment gets CUES_LOST and CUE_OVERFLOW is raised (R82, R85, R86). A due cue past its segment's
retirement position is cancelled and counted and does nothing else; any other fires and is counted (R87), a late one with
LATE on its segment and in the late count (R86; that the count rises as it fires is log 41, DEDUCED). A MARK cue drives
the line and appends its position, H − exit offset − head, to a list of fewer than four; one more raises the count of
further marks, up to 255 (R93). A screen cue is accepted where its screen is mounted and the track holds its segment under
the screen; LIFT and PASTE_HOLD then come into force for the segment, LOWER and PASTE_RESUME end them, and a cue that is
not accepted is counted as stray. An override set or cleared has the want evaluated (at once, log 50, the model's choice);
a cue that leaves the override as it was, a paste cue or a LOWER with no override, changes no more of the station (R90,
R91, R103). A ZONE_SET cue sets its zone's run setpoint (R92, R123). -/
def Obligations.CuesQueueAndFire : Prop :=
  (∀ (x : Ctx) (entering : Bool) (b : Blocks), b.cues.queue.Pairwise (fun a b => a.due ≤ b.due) →
      let b' := takeAdvance x entering b .cues
      b' = (b.cues.queue.filter fun p => decide (p.due ≤ x.motion.h)).foldl (fireCue x) (b.setCues { b.cues with
        queue := b.cues.queue.filter fun p => decide (x.motion.h < p.due) }) ∧
      b'.cues.queue = b.cues.queue.filter fun p => decide (x.motion.h < p.due)) ∧
  ((∀ (x : Ctx) (advance : Bool) (edge q : Nat) (cs : List Cue) (b : Blocks), insertBatch x advance edge q cs b =
      cs.foldl (insertCue x (if advance then x.motion.h else x.motion.h + 1) edge q) b) ∧
    ∀ (c : Anchor) (edge : Nat) (u : Cue) (offset : Nat),
      (u.action = .mark → offset = c.exitOffset) →
      (∀ z : Fin 8, u.action = .zoneSet → u.target = z.val + 1 → offset = c.zoneEntry[z]) →
      (∀ k : Fin 16, u.action ∈ [.lift, .lower, .pasteHold, .pasteResume] → u.target = k.val + 1 →
        offset = c.screenOffset[k]) →
      u.action = .mark ∨ (u.action = .zoneSet ∧ 1 ≤ u.target ∧ u.target ≤ 8) ∨
        (u.action ∈ [.lift, .lower, .pasteHold, .pasteResume] ∧ 1 ≤ u.target ∧ u.target ≤ 16) →
      ((edge : Int) + u.offset + offset).toNat < Config.positions →
      duePosition c edge u = ((edge : Int) + u.offset + offset).toNat) ∧
  (∀ (x : Ctx) (bound edge q : Nat) (b : Blocks) (c : Cue), b.live = true →
      (∀ p ∈ b.cues.queue, x.motion.h < p.due) →
      let due := duePosition x.cfg edge c
      let b' := insertCue x bound edge q b c
      b'.cues.insertions = b.cues.insertions + 1 ∧
      (b.cues.queue.length < 64 → x.motion.h < due →
        b'.cues.queue = insertDue ⟨due, c, q, decide (due < bound), b.cues.insertions + 1⟩ b.cues.queue ∧
        b'.track = b.track ∧ b'.causes = b.causes ∧ b'.stations = b.stations) ∧
      (b.cues.queue.length < 64 → due ≤ x.motion.h → b' = fireCue x
        (b.setCues { b.cues with insertions := b.cues.insertions + 1 })
        ⟨due, c, q, decide (due < bound), b.cues.insertions + 1⟩) ∧
      (64 ≤ b.cues.queue.length → b'.cues.queue = b.cues.queue ∧ b'.cues.dropped = inc16 b.cues.dropped ∧
        Raised .cueOverflow 0 .hold b.causes b'.causes ∧
        ∀ g ∈ b'.track.segs, g.seq = q → g.flags.cuesLost = true)) ∧
  (∀ (x : Ctx) (b : Blocks) (p : PendingCue) (g : Segment), b.track.find p.seq = some g →
      (∀ n, g.length = some n → g.head + n + x.cfg.exitOffset ≤ p.due →
        fireCue x b p = b.setCues { b.cues with cancelled := inc16 b.cues.cancelled }) ∧
      ((∀ n, g.length = some n → p.due < g.head + n + x.cfg.exitOffset) →
        let b' := fireCue x b p
        b'.cues.fired = inc32 b.cues.fired ∧ b'.cues.late = (if p.late then inc16 b.cues.late else b.cues.late) ∧
        (∃ g', b'.track.find p.seq = some g' ∧ g'.flags.late = (g.flags.late || p.late)) ∧
        (p.cue.action = .mark → b'.cues.markPulse = true ∧
          (4 ≤ g.markList.length → ∃ g', b'.track.find p.seq = some g' ∧ g'.markList = g.markList ∧
            g'.furtherMarks = inc8 g.furtherMarks) ∧
          (g.markList.length < 4 → ∃ g', b'.track.find p.seq = some g' ∧
            g'.markList = g.markList ++ [⟨(x.motion.h : Int) - x.cfg.exitOffset - g.head, p.cue.value⟩])) ∧
        (∀ k : Fin 16, p.cue.action ∈ [.lift, .lower, .pasteHold, .pasteResume] → p.cue.target = k.val + 1 →
          let st := b.stations.station[k]
          let accepted := st.mount.mounted = true ∧ ∃ f u, coordinate x.motion.h x.cfg.screenOffset[k] = some f ∧
            b.track.segmentAt f = some u ∧ u.seq = p.seq
          let cued : Station := match p.cue.action with
            | .lift => { st with override := some p.seq }
            | .lower => { st with override := none }
            | .pasteHold => { st with pasteHold := some p.seq }
            | _ => { st with pasteHold := none }
          let w := wantOf x b' k
          (accepted → b'.cues.stray = b.cues.stray ∧ b'.stations = { b.stations with
            station := b.stations.station.set k
              (if cued.override = st.override ∨ w = st.want then cued
               else liftWant b.stations.liftTimeout w { cued with want := w }) }) ∧
          (¬ accepted → b'.stations = b.stations ∧ b'.cues.stray = inc16 b.cues.stray)) ∧
        ∀ z : Fin 8, p.cue.action = .zoneSet → p.cue.target = z.val + 1 →
          b'.oven.zone[z] = { b.oven.zone[z] with runSet := p.cue.value, source := .cue } ∧
          ∀ j : Fin 8, j ≠ z → b'.oven.zone[j] = b.oven.zone[j]))

/-! ### Screen stations (06) -/

/-- A host write into the mount window changes the image by its enabled bytes and passes to memory; a word that is
neither the closing word nor a trim word, or that is partial, does nothing more (R98). A trim of an unmounted screen, or
out of range, is refused with MOUNT_REFUSED and changes no trim; a trim with apply-now becomes active at once, one without
it becomes the pending trim (R111). That enable i covers bits 8i to 8i + 7 of the word is log 2 (PRESUMED). -/
def Obligations.MountWritesAndTrims : Prop :=
  ((∀ (old : Word) (w : WriteWord), ∀ i < 4, (mergeWord old w).extractLsb' (8 * i) 8 =
      if w.enables.getLsbD i then w.value.extractLsb' (8 * i) 8 else old.extractLsb' (8 * i) 8) ∧
    ∀ (s : State) (w : CarriedWord) (v : WriteWord) (off : Nat) (decision : Decision) (h : off < 96),
      CarriesWrite s w v .mount off → (v.enables ≠ 0xF#4 ∨ (off = 95 ∧ v.value = 0) ∨ (off < 95 ∧ (off % 4 ≠ 3 ∨ 64 ≤ off))) →
      ∃ t, exec (.mountWrite decision) s = .next t ∧
        WordLeaves s w v (s.blk.setStations { s.blk.stations with
          image := s.blk.stations.image.set off (mergeWord s.blk.stations.image[off] v) }) t) ∧
  (∀ (s : State) (w : CarriedWord) (v : WriteWord) (k : Fin 16) (decision : Decision),
      CarriesWrite s w v .mount (4 * k.val + 3) → v.enables = 0xF#4 →
      let phase := v.value.extractLsb' 0 16
      let paste := v.value.extractLsb' 16 11
      let trim : Trim := ⟨phase.toInt, paste.toInt⟩
      let ok := (-2000 ≤ trim.phase ∧ trim.phase ≤ 2000) ∧ -1000 ≤ trim.paste ∧ trim.paste ≤ 1000
      let st := s.blk.stations.station[k]
      ∃ t, exec (.trim decision) s = .next t ∧ t.mem = s.mem.writeWord w.addr v.enables v.value ∧
        t.blk.track = s.blk.track ∧ t.blk.cache = s.blk.cache ∧ t.blk.cues = s.blk.cues ∧ t.motion = s.motion ∧
        (∀ j : Fin 16, j ≠ k → t.blk.stations.station[j] = s.blk.stations.station[j]) ∧
        (st.mount.mounted = true → ok → v.value.getLsbD 31 = true → t.blk.causes = s.blk.causes ∧
          t.blk.stations.station[k] = { st with trim := trim, pendingTrim := none } ∧
          t.blk.stations.trimsTaken = inc16 s.blk.stations.trimsTaken) ∧
        (st.mount.mounted = true → ok → v.value.getLsbD 31 = false → t.blk.causes = s.blk.causes ∧
          t.blk.stations.station[k] = { st with pendingTrim := some trim } ∧
          t.blk.stations.trimsTaken = inc16 s.blk.stations.trimsTaken) ∧
        (st.mount.mounted = false ∨ ¬ ok → t.blk.stations.station[k] = st ∧
          t.blk.stations.trimsRefused = inc16 s.blk.stations.trimsRefused ∧
          Raised .mountRefused (k.val + 1) .report s.blk.causes t.blk.causes ∧
          t.blk.stations.lastRefusal =
            some (if st.mount.mounted = false then .trimUnmounted else .trimRange, k.val + 1)))

/-- A remount request is judged on the image with its closing word. A refused one raises MOUNT_REFUSED and changes no
mount data in force; an accepted one brings the image into force for every station at once (R99, R100). The module entry
of a screen mounted or unmounted takes the values of R148; the data that phase references are computed with stay until the
next link cycle for a screen mounted before and after (R100), and are a newly mounted screen's own at once (log 56,
DEDUCED). -/
def Obligations.RemountsAreJudged : Prop :=
  ∀ (s : State) (w : CarriedWord) (v : WriteWord) (decision : Decision), CarriesWrite s w v .mount 95 →
    v.enables = 0xF#4 → v.value ≠ 0 →
    let image := s.blk.stations.image.set 95 v.value
    let stations := { s.blk.stations with image := image }
    ∃ t, exec (.remountRequest decision) s = .next t ∧ t.mem = s.mem.writeWord w.addr v.enables v.value ∧
      t.blk.stations.image = image ∧ t.motion = s.motion ∧ t.cfg = s.cfg ∧ t.blk.track = s.blk.track ∧
      (validClosing v.value = false → remountFault s.ctx v.value stations = some (.badCheck, 0)) ∧
      (validClosing v.value = true → s.motion.state ≠ .halted →
        remountFault s.ctx v.value stations = some (.moving, 0)) ∧
      (∀ d n, remountFault s.ctx v.value stations = some (d, n) →
        t.blk.stations = { stations with
          lastRefusal := some (d, n), refusedRemounts := inc16 s.blk.stations.refusedRemounts } ∧
        Raised .mountRefused n .report s.blk.causes t.blk.causes ∧ t.blk.field = s.blk.field ∧
        t.blk.cache = s.blk.cache) ∧
      (remountFault s.ctx v.value stations = none →
        t.blk.stations.generation = v.value.extractLsb' 0 16 ∧
        t.blk.stations.remounts = inc16 s.blk.stations.remounts ∧ t.blk.causes = s.blk.causes ∧
        t.blk.stations.liftTimeout = ((image[64]).extractLsb' 0 16).toNat ∧
        t.blk.stations.refScreen = ((image[64]).extractLsb' 16 5).toNat ∧
        ∀ k : Fin 16,
          let new := mountRecord image.toList k
          let old := s.blk.stations.station[k].mount
          t.blk.stations.station[k].mount = new ∧
          (new.mounted = old.mounted → t.blk.field.phase[k] = s.blk.field.phase[k] ∧
            ∀ a : Fin 24, moduleScreen a = some k → t.blk.field.module[a] = s.blk.field.module[a]) ∧
          (new.mounted = true → old.mounted = false → t.blk.field.phase[k] = ⟨new.repeatLen, new.origin⟩) ∧
          (new.mounted ≠ old.mounted → ∀ a : Fin 24, moduleScreen a = some k →
            t.blk.field.module[a] = { s.blk.field.module[a] with
              online := false, misses := 0, goods := 0, faultMarker := false, selector := false, item0 := none
              item1 := none }))

/-- A station at an H advance. It takes its holding from the track at H − offset; at a boundary it writes the mark of the
segment it leaves from W and E, ends an override and a paste hold of another segment, and starts W and E at 0 (R101, R116).
A seam head under a machine that is not LIFTED raises SEAM_UNLIFTED (R108). The unit is wanted where the fabric under the
screen is to be printed, and engaged where the machine is ENGAGED then (R115). A change of want moves the machine (R103,
R104), and the lift reports, the registration and the lift timer act on it (R104, R105, R106, R113). No other station
changes. That a station takes its matters in this order is log 14, that a station above the screen count takes them is
log 13, and that the seam spans at an unmounted screen are bounded by its record's lead and lag is log 49: all three the
model's choice. -/
def Obligations.StationsFollowTheTrackAndTheirLifts : Prop :=
  (∀ (x : Ctx) (entering : Bool) (b : Blocks) (k : Fin 16), b.live = true →
      let st := b.stations.station[k]
      let c := coordinate x.motion.h x.cfg.screenOffset[k]
      let new := b.track.holdingAt c
      let keep (o : Option Nat) : Option Nat := o.filter fun q => decide (new = .segment q)
      let left : Station := if st.holding = new then st else { st with
        holding := new, override := keep st.override, pasteHold := keep st.pasteHold, wanted := 0, engaged := 0 }
      let b' := takeAdvance x entering b (.station k)
      let st' := b'.stations.station[k]
      let prints := printsHere x (refreshStation x b k) k
      (refreshStation x b k).stations.station[k] = left ∧
      st'.holding = new ∧ st'.override = left.override ∧ st'.pasteHold = left.pasteHold ∧
      st'.wanted = left.wanted + (if prints then 1 else 0) ∧
      st'.engaged = left.engaged + (if prints ∧ st.lift = .engaged then 1 else 0) ∧
      (∀ q, st.holding = .segment q → st.holding ≠ new → ∀ g ∈ b'.track.segs, g.seq = q →
        g.marks[k].code = if st.wanted = 0 then .notUsed else if st.engaged = st.wanted then .printed
          else if st.engaged = 0 then .missed else .partly) ∧
      (∀ f, c = some f → seamHeadAt (refreshStation x b k).track f ≠ [] → st.lift ≠ .lifted →
        (b'.causes.entry .seamUnlifted).isSome = true ∧ b'.stations.seamUnlifted = inc16 b.stations.seamUnlifted ∧
        ∀ q ∈ seamHeadAt (refreshStation x b k).track f, ∀ g ∈ b'.track.segs, g.seq = q →
          g.flags.seamUnlifted = true) ∧
      ∀ j : Fin 16, j ≠ k → b'.stations.station[j] = b.stations.station[j]) ∧
  (∀ (x : Ctx) (b : Blocks) (k : Fin 16),
      let st := b.stations.station[k]
      (printsHere x b k = true ↔ ∃ q f g v, st.holding = .segment q ∧
        coordinate x.motion.h x.cfg.screenOffset[k] = some f ∧ b.track.find q = some g ∧
        segSetting b.cache g = some v ∧ v.engages k = true ∧ st.override = none ∧
        ∀ r ∈ seamRanges x.cfg.seamLength b.track, ¬ (r.1 ≤ f + st.mount.lead ∧ f < r.2 + st.mount.lag)) ∧
      (wantOf x b k = .down ↔ st.mount.mounted = true ∧ b.field.module[k.val].online = true ∧
        (∀ reason, st.lift ≠ .fault reason) ∧ printsHere x b k = true) ∧
      (wantOf x b k = st.want → evaluateWant x b k = b) ∧
      (wantOf x b k ≠ st.want → evaluateWant x b k = b.setStations { b.stations with
        station := b.stations.station.set k (match st.lift, wantOf x b k with
          | .lifted, .down => { st with
              want := .down, lift := .lowering, liftTimer := some b.stations.liftTimeout }
          | .lowering, .up | .engaged, .up => { st with
              want := .up, lift := .lifting, liftTimer := some b.stations.liftTimeout }
          | _, w => { st with want := w }) })) ∧
  (∀ (x : Ctx) (b : Blocks) (k : Fin 16) (r : LiftPosition), b.live = true →
      let st := b.stations.station[k]
      let b' := liftReport x k r b
      let put (u : Station) : Blocks := b.setStations { b.stations with station := b.stations.station.set k u }
      let lifted := put { st with lift := .lifted, liftTimer := none }
      let lowering := { st with lift := .lowering, liftTimer := some b.stations.liftTimeout }
      (st.lift = .lowering → b' = if r = .down then put { st with lift := .engaged, liftTimer := none } else b) ∧
      (st.lift = .lifting → b' = if r = .up then (if st.want = .down then put lowering else lifted) else b) ∧
      (st.lift = .lifted → r = .up → b' = b) ∧ (st.lift = .engaged → r = .down → b' = b) ∧
      (st.lift = .lifted ∧ r ≠ .up ∨ st.lift = .engaged ∧ r ≠ .down →
        b'.stations.station[k] = { st with lift := .fault .unexpected, liftTimer := none, want := .up } ∧
        b'.stations.liftFaults = inc16 b.stations.liftFaults ∧
        Raised .liftFault (k.val + 1) .trip b.causes b'.causes) ∧
      ∀ reason, st.lift = .fault reason →
        b' = if r = .up ∧ b.field.module[k.val].online = true then evaluateWant x lifted k else b) ∧
  (∀ (k : Fin 16) (error : Int) (b : Blocks),
      let st := b.stations.station[k]
      let e := min 255 error.natAbs
      let b' := registration k error b
      (st.lift ≠ .engaged → b' = b) ∧
      (st.lift = .engaged →
        b'.stations.station[k] = { st with worst := max st.worst e, seen := true } ∧
        ∀ q, st.holding = .segment q →
          b'.track = modSeg q (fun g => { g with worst := g.worst.set k (max g.worst[k] e) }) b.track)) ∧
  ∀ (s : State) (k : Fin 16) (n : Nat), s.blk.stations.station[k].liftTimer = some n → s.blk.live = true →
    s.blk.stations.station[k].lift = .lowering ∨ s.blk.stations.station[k].lift = .lifting →
    ∃ t, exec (.liftTimerExpiry k) s = .next t ∧
      t.blk.stations.station[k] = { s.blk.stations.station[k] with
        lift := .fault .timeout, liftTimer := none, want := .up } ∧
      (∀ j : Fin 16, j ≠ k → t.blk.stations.station[j] = s.blk.stations.station[j]) ∧
      t.blk.stations.liftTimeouts = inc16 s.blk.stations.liftTimeouts ∧
      Raised .liftTimeout (k.val + 1) .trip s.blk.causes t.blk.causes ∧
      t.blk.track = s.blk.track ∧ t.blk.field = s.blk.field ∧ t.mem = s.mem ∧ t.motion = s.motion

/-- The paste rate a screen's command frame carries, in its bytes 6 and 7: 0 when the screen is not ENGAGED, a paste hold
is in force, or the current segment's setting does not engage the screen; otherwise the setting's rate plus the active
paste trim, clamped to 0..1000 (R112). A segment with no setting, a gap and the fabric before the track engage no
screen. -/
def Obligations.PasteRateFollowsTheSegment : Prop :=
  ∀ (x : Ctx) (b : Blocks) (a : Fin 24) (k : Fin 16), moduleScreen a = some k →
    let st := b.stations.station[k]
    let rate := pasteRate b k
    ((commandFrame x b a).drop 5).take 2 = [BitVec.ofNat 8 (rate / 256), BitVec.ofNat 8 rate] ∧ rate ≤ 1000 ∧
    (st.lift ≠ .engaged → rate = 0) ∧ (st.pasteHold.isSome = true → rate = 0) ∧
    ((∀ q, st.holding ≠ .segment q) → rate = 0) ∧
    ∀ q, st.holding = .segment q →
      (∀ g v, b.track.find q = some g → segSetting b.cache g = some v →
        (v.engages k = false → rate = 0) ∧
        (st.lift = .engaged → st.pasteHold = none → v.engages k = true →
          (rate : Int) = max 0 (min 1000 ((v.paste[k] : Int) + st.trim.paste)))) ∧
      (b.track.find q = none → rate = 0) ∧
      ∀ g, b.track.find q = some g → segSetting b.cache g = none → rate = 0

/-! ### Oven unit (07) -/

/-- The frame of a listed zone's module, ONLINE or LOST: in RUN the run setpoint and air level; in STANDBY the standby
setpoint and the run air level; in VENT the standby setpoint and level 15 (R124). -/
def Obligations.ZoneFramesFollowTheMode : Prop :=
  ∀ (x : Ctx) (b : Blocks) (a : Fin 24) (z : Fin 8), moduleZone a = some z →
    let r := b.oven.zone[z]
    let selector := b.field.module[a].selector
    commandFrame x b a = match r.mode with
      | .run => zoneFrame (a.val + 1) .run selector r.runSet r.runAir
      | .standby => zoneFrame (a.val + 1) .standby selector x.cfg.standbySetpoint r.runAir
      | .vent => zoneFrame (a.val + 1) .vent selector x.cfg.standbySetpoint 15

/-- Probes of PRINT segments. At an H advance the zones take their boundaries, every probe its place, and the probes whose
fabric has crossed entry are created (R127, R129); an admission creates the one at 0 (R127); a closure keeps those below
the length, creates the one at length − 1 and flags COVERAGE_SHORT where seven spacings fall short (R128). A probe takes its
place, and is judged past the oven exit by the table of R131; its segment's verdict is the worst, UNDERCURE or OVERCURE
raised at the first that the segment gains, be its probe held still or removed (R129, R131, R132; that the source is Z also
for a probe that was in no zone is log 51, the model's choice). The accounting timer's expiry credits every probe in a listed zone, and,
while the line advances, nothing else (R130). -/
def Obligations.ProbesAreMadeCreditedAndJudged : Prop :=
  ((∀ s : State, s.blk.oven.timerRunning = true → s.motion.state = .advancing →
      ∃ t, exec .accountingTimerExpiry s = .next t ∧
        let credited (g : Segment) := g.probes.map (creditProbe s.blk.oven s.blk.field (segSetting s.blk.cache g))
        FollowsFrom (s.setBlk (s.blk.setTrack { s.blk.track with
          segs := s.blk.track.segs.map fun g => { g with probes := credited g } })) t) ∧
    ∀ (o : Oven) (f : FieldLine) (setting : Option Setting) (p : Probe),
      ((∀ z, p.place ≠ .zone z) → creditProbe o f setting p = p) ∧
      ∀ z : Fin 8, p.place = .zone z →
        (∀ v, setting = some v → f.module[z.val + 16].online = true → creditProbe o f setting p = { p with
          cure := if v.cureTemp ≤ o.zone[z].temp then inc16 p.cure else p.cure
          scorch := if v.scorchTemp ≤ o.zone[z].temp then inc16 p.scorch else p.scorch }) ∧
        (setting = none ∨ f.module[z.val + 16].online = false →
          creditProbe o f setting p = { p with unverified := inc16 p.unverified })) ∧
  ((∀ (x : Ctx) (entering : Bool) (b : Blocks), takeAdvance x entering b .oven =
      [1, 2, 3, 4, 5, 6].foldl (growProbe x) (placeProbes x (refreshZones x b))) ∧
    (∀ (x : Ctx) (b : Blocks) (g : Segment) (k : Nat), b.track.entering = some g →
      let rel := k * x.cfg.probeSpacing
      let due := g.kind = .print ∧ g.head + rel < x.motion.h ∧ g.probes.length < 7 ∧ (∀ p ∈ g.probes, p.rel ≠ rel) ∧
        ∀ w, b.track.boundary = .waiting w → g.head + rel < w
      (due → growProbe x b k = createProbe x g.seq rel b) ∧ (¬ due → growProbe x b k = b)) ∧
    (∀ (x : Ctx) (b : Blocks) (g : Segment), g.kind = .print → ovenAdmitted x g b = createProbe x g.seq 0 b) ∧
    (∀ (x : Ctx) (b : Blocks) (q rel : Nat) (g : Segment), b.track.find q = some g → (∀ p ∈ g.probes, p.rel ≠ rel) →
      ∃ g' p', (createProbe x q rel b).track.find q = some g' ∧ p' ∈ g'.probes ∧
        g'.probes.filter (·.rel ≠ rel) = g.probes ∧ p'.rel = rel ∧ p'.place = placeOf x (g.head + rel) ∧
        p'.cure = 0 ∧ p'.scorch = 0 ∧ p'.unverified = 0 ∧ p'.cap = false ∧
        (p'.place ≠ .after → p'.verdict = .pending)) ∧
    ∀ (x : Ctx) (b : Blocks) (q n : Nat) (g : Segment), b.track.find q = some g → 0 < n →
      g.probes.Pairwise (·.rel < ·.rel) →
      let kept := (g.probes.map (·.rel)).filter (· < n)
      ∃ g', (ovenClosed x q n b).track.find q = some g' ∧
        g'.probes.map (·.rel) = (if n - 1 ∈ kept then kept else kept ++ [n - 1]) ∧
        (g.gainedUnder = true → g'.gainedUnder = true) ∧ (g.gainedOver = true → g'.gainedOver = true) ∧
        (7 * x.cfg.probeSpacing < n → g'.flags.coverageShort = true ∧
          (ovenClosed x q n b).oven.coverageShort = inc16 b.oven.coverageShort) ∧
        (n ≤ 7 * x.cfg.probeSpacing → g'.flags = g.flags)) ∧
  ((∀ (x : Ctx) (b : Blocks) (q rel : Nat) (g : Segment) (p : Probe), b.live = true → b.track.find q = some g →
      g.probes.find? (·.rel == rel) = some p →
      let b' := placeProbe x b q rel
      let place := placeOf x (g.head + rel)
      let v := judgeProbe (segSetting b.cache g) p
      (place ≠ .after ∨ p.verdict ≠ .pending → b' = b.setTrack (modSeg q (fun g => { g with
        probes := g.probes.map fun p => if p.rel = rel then { p with place := place } else p }) b.track)) ∧
      (place = .after → p.verdict = .pending →
        b'.track = modSeg q (fun g => { g with
          probes := g.probes.map fun p => if p.rel = rel then { p with place := .after, verdict := v } else p
          verdict := g.verdict.worse v
          gainedUnder := g.gainedUnder || decide (v = .undercured)
          gainedOver := g.gainedOver || decide (v = .overcured) }) b.track ∧
        (v = .undercured → g.gainedUnder = false → Raised .undercure x.cfg.zoneCount .report b.causes b'.causes) ∧
        (v = .overcured → g.gainedOver = false → Raised .overcure x.cfg.zoneCount .report b.causes b'.causes) ∧
        ((v = .undercured → g.gainedUnder = true) → (v = .overcured → g.gainedOver = true) →
          b'.causes = b.causes))) ∧
    (∀ (p : Probe) (v : Setting),
      judgeProbe none p = .unverified ∧
      (v.scorchTime < p.scorch → judgeProbe (some v) p = .overcured) ∧
      (p.scorch ≤ v.scorchTime →
        (v.cureTime ≤ p.cure → judgeProbe (some v) p = if p.cap then .unverified else .cured) ∧
        (p.cure < v.cureTime → v.cureTime ≤ p.cure + p.unverified → judgeProbe (some v) p = .unverified) ∧
        (p.cure + p.unverified < v.cureTime → judgeProbe (some v) p = .undercured))) ∧
    ∀ old new : Verdict, [Verdict.pending, .cured, .unverified, .undercured, .overcured].map Verdict.rank = [0, 1, 2, 3, 4] ∧
      old.worse new = if old.rank < new.rank then new else old)

/-- A zone takes its holding from the track at H − entry offset; where that is a segment other than the one it last
recorded, it takes the setting's setpoint and air level with source PROFILE, or, with no setting, holds what it has with
source HELD (R121, R122); at an H advance every listed zone does, and no other. The setpoint in force is the run setpoint
in RUN and the standby setpoint otherwise (R120). The dwell monitor of a line that does not advance with probes in the
oven: the dwell count rises; at the stage-1 time every zone in RUN goes to STANDBY with OVEN_STANDBY; at the stage-2 time
every listed zone goes to VENT with OVEN_VENT, and no probe in a zone stays PENDING (R133, R134, R135). -/
def Obligations.ZonesFollowTheTrackAndTheDwellMonitor : Prop :=
  ((∀ (x : Ctx) (b : Blocks) (z : Fin 8),
      let r := b.oven.zone[z]
      let new := b.track.holdingAt (coordinate x.motion.h x.cfg.zoneEntry[z])
      let b' := refreshZone x b z
      let r' := b'.oven.zone[z]
      (∀ j : Fin 8, j ≠ z → b'.oven.zone[j] = b.oven.zone[j]) ∧
      ((∀ q, new ≠ .segment q) → r' = { r with holding := new }) ∧
      ∀ q, new = .segment q →
        (r.recorded = some q → r' = { r with holding := new }) ∧
        (r.recorded ≠ some q →
          (∀ g v, b.track.find q = some g → segSetting b.cache g = some v → r' = { r with
            holding := new, recorded := some q, runSet := v.setpoint[z], runAir := v.air[z], source := .profile }) ∧
          ((∀ g, b.track.find q = some g → segSetting b.cache g = none) → r' = { r with
            holding := new, recorded := some q, source := .held }))) ∧
    (∀ (x : Ctx) (b : Blocks) (z : Fin 8), (refreshZones x b).oven.zone[z] =
      if z.val < x.cfg.zoneCount then (refreshZone x b z).oven.zone[z] else b.oven.zone[z]) ∧
    ∀ (c : Anchor) (r : Zone), (r.mode = .run → setpointInForce c r = (r.runSet, r.source)) ∧
      (r.mode ≠ .run → setpointInForce c r = (c.standbySetpoint, .standby))) ∧
  ∀ s : State, s.blk.live = true → s.blk.oven.timerRunning = true → s.motion.state ≠ .advancing →
    0 < probesInZones s.blk.track → s.blk.oven.dwellStage < 2 →
    ∃ t, exec .accountingTimerExpiry s = .next t ∧ t.blk.oven.dwellCount = s.blk.oven.dwellCount + 1 ∧
      t.motion = s.motion ∧ t.mem = s.mem ∧ t.blk.field = s.blk.field ∧
      t.blk.track.segs.map segmentShape = s.blk.track.segs.map segmentShape ∧
      (s.blk.oven.dwellStage = 0 → s.blk.oven.dwellCount + 1 < 10 * s.cfg.stage1 →
        t.blk.oven = { s.blk.oven with dwellCount := s.blk.oven.dwellCount + 1 } ∧ t.blk.causes = s.blk.causes) ∧
      (s.blk.oven.dwellStage = 0 → 10 * s.cfg.stage1 ≤ s.blk.oven.dwellCount + 1 →
        t.blk.oven.dwellStage = 1 ∧ t.blk.oven.standbys = inc16 s.blk.oven.standbys ∧
        Raised .ovenStandby 0 .report s.blk.causes t.blk.causes ∧
        ∀ z : Fin 8, t.blk.oven.zone[z] = if z.val < s.cfg.zoneCount ∧ s.blk.oven.zone[z].mode = .run
          then { s.blk.oven.zone[z] with mode := .standby } else s.blk.oven.zone[z]) ∧
      (s.blk.oven.dwellStage = 1 → 10 * s.cfg.stage2 ≤ s.blk.oven.dwellCount + 1 →
        t.blk.oven.dwellStage = 2 ∧ t.blk.oven.vents = inc16 s.blk.oven.vents ∧
        (t.blk.causes.entry .ovenVent).isSome = true ∧
        (∀ z : Fin 8, z.val < s.cfg.zoneCount → t.blk.oven.zone[z].mode = .vent) ∧
        ∀ g ∈ t.blk.track.segs, ∀ p ∈ g.probes, p.place.inZone = true → p.verdict ≠ .pending)

/-! ### Field line (08) -/

/-- The cycle timer's expiry starts a cycle when the controller is idle, with the lowest configured module's exchange
first, and sets start-owed in a cycle (R143, R144). A cycle with no module configured ends at its start. Its phase
references go by the repeat lengths and phase origins in force at its start (R100): for a mounted screen the frame's
bytes 3 to 5 hold ten times the remainder of P − offset + origin by the repeat length plus the active phase trim,
reduced into one repeat (R109); that bits 2 to 7 of byte 3, which R200 does not name, are 0 is log 53. In an exchange
the quiet reached sends the command frame of its module; the frame sent releases the line and starts the reply timer;
the reply's first character stops it (R141, R145, R146). That the frame goes also to a screen unmounted since its
exchange began is log 29, and that the duration of a cycle with no module is 0 is log 6; these three are the model's
choice. -/
def Obligations.CyclesAndExchangesRun : Prop :=
  (∀ (s : State) (n : Nat), s.blk.field.cycleTimer = some n →
      let f := s.blk.field
      let inForce (k : Fin 16) : PhaseData :=
        ⟨s.blk.stations.station[k].mount.repeatLen, s.blk.stations.station[k].mount.origin⟩
      (f.exchange = none → ∀ a : Fin 24, configured s.ctx s.blk a = true →
        (∀ a' : Fin 24, a' < a → configured s.ctx s.blk a' = false) →
        ∃ t, exec .cycleTimerExpiry s = .next t ∧ (∀ k : Fin 16, t.blk.field.phase[k] = inForce k) ∧
        FollowsFrom (s.setBlk (s.blk.setField { f with
          cycles := f.cycles + 1, cycleTimer := some s.cfg.cyclePeriod, exchange := some ⟨a, .quiet, false⟩
          phase := t.blk.field.phase })) t) ∧
      (f.exchange = none → (∀ a, configured s.ctx s.blk a = false) → ∃ t, exec .cycleTimerExpiry s = .next t ∧
        (∀ k : Fin 16, t.blk.field.phase[k] = inForce k) ∧ FollowsFrom (s.setBlk (s.blk.setField { f with
          cycles := f.cycles + 1, cycleTimer := some s.cfg.cyclePeriod, lastDuration := 0
          phase := t.blk.field.phase })) t) ∧
      (∀ e, f.exchange = some e → ∃ t, exec .cycleTimerExpiry s = .next t ∧
        FollowsFrom (s.setBlk (s.blk.setField { f with cycleTimer := none, startOwed := true })) t)) ∧
  (∀ (x : Ctx) (b : Blocks) (a : Fin 24) (k : Fin 16), moduleScreen a = some k →
      let st := b.stations.station[k]
      let d := b.field.phase[k]
      let reference := phaseReference x k d st
      ((commandFrame x b a).drop 2).take 3 =
        [BitVec.ofNat 8 (reference / 65536 % 4), BitVec.ofNat 8 (reference / 256), BitVec.ofNat 8 reference] ∧
      (st.mount.mounted = true → 0 < d.repeatLen → -(10 * d.repeatLen : Int) ≤ st.trim.phase →
        st.trim.phase ≤ 10 * d.repeatLen →
        (reference : Int) = (10 * (((x.motion.p : Int) - x.cfg.screenOffset[k] + d.origin) % d.repeatLen) + st.trim.phase) %
          (10 * d.repeatLen))) ∧
  (∀ (s : State) (a : Fin 24) (sel : Bool),
      let f := s.blk.field
      (f.exchange = some ⟨a, .quiet, sel⟩ → f.lineDriven = false → ∃ t, exec .exchangeQuietReached s = .next t ∧
        FollowsFrom (s.setBlk (s.blk.setField { f with
          exchange := some ⟨a, .sending, f.module[a].selector⟩, lineDriven := true,
          command := commandFrame s.ctx s.blk a })) t) ∧
      (f.exchange = some ⟨a, .sending, sel⟩ → f.lineDriven = true → ∃ t, exec .commandFrameSent s = .next t ∧
        FollowsFrom (s.setBlk (s.blk.setField { f with
          exchange := some ⟨a, .awaiting, sel⟩, lineDriven := false, replyTimer := some s.cfg.replyTimeout })) t) ∧
      (f.exchange = some ⟨a, .awaiting, sel⟩ → ∃ t, exec .replyFirstCharacter s = .next t ∧
        FollowsFrom (s.setBlk (s.blk.setField { f with
          exchange := some ⟨a, .receiving, sel⟩, replyTimer := none })) t))

/-- A line that stays busy gives a LINE_BUSY miss, a reply timer that expires a NO_REPLY miss: the count of the reason and
the module's total rise, the selector toggles, and the exchange ends (R145, R147, R148, R153). The miss moves a configured
module's state: three running make it LOST, two good replies running make it ONLINE (R149). A loss sends a screen's machine
to FAULT and raises MODULE_LOST, at TRIP where the machine was down or moving, and at HOLD otherwise or for a zone (R107,
R151). That the miss of a module unconfigured since its exchange began is counted and leaves its state is log 29, the
model's choice. -/
def Obligations.MissesLoseModules : Prop :=
  (∀ (s : State) (a : Fin 24) (sel : Bool) (elapsed : Nat),
      (s.blk.field.exchange = some ⟨a, .quiet, sel⟩ →
        ∃ t, exec (.quietWaitTimeout elapsed) s = .next t ∧ MissTaken s a .lineBusy t) ∧
      (s.blk.field.exchange = some ⟨a, .awaiting, sel⟩ →
        ∃ t, exec (.replyTimerExpiry elapsed) s = .next t ∧ MissTaken s a .noReply t ∧
          t.blk.field.replyTimer = none)) ∧
  (∀ m : Module,
      (m.online = true → m.misses < 2 → m.missed = { m with misses := m.misses + 1 }) ∧
      (m.online = true → m.misses = 2 → m.missed.online = false ∧ m.missed.misses = 3 ∧ m.missed.goods = 0 ∧
        m.missed.faultMarker = false) ∧
      (m.online = false → m.missed = { m with goods := 0 }) ∧
      (m.online = true → m.answered = { m with misses := 0 }) ∧
      (m.online = false → m.goods = 0 → m.answered = { m with goods := 1 }) ∧
      (m.online = false → m.goods = 1 → m.answered.online = true ∧ m.answered.goods = 2 ∧ m.answered.misses = 0))

/-- A frame that no exchange waits for is a late frame (R142); that a frame closing outside the exchange's receiving
phase, its awaiting phase included, is one is log 28 (DEDUCED). The frame of the exchange in progress is judged by the
checks of R147 in order: a framing error and seven characters, the CRC, the address, the contents. A good reply is kept as
the module's last, moves a configured module's state, and is handed to the station or the zone that the module serves
(R149, R150); its fault bit becomes the marker, and MODULE_FAULT is raised where the marker was clear (R152); the item that
the selector names takes its value, clamped to 1000, and a PASTE_LEVEL that falls below 100 raises PASTE_LOW (R153, R154).
A miss is counted with its reason and moves a configured module's state (R149). The selector toggles at the end of either
(R153). While the part drives the line nothing is received. That a station takes the phase error of a reply before its lift
report is log 15, and that the end of an exchange changes no state and hands nothing on for a module unconfigured since it
began is log 29, both the model's choice. -/
def Obligations.FramesAreJudgedOrLate : Prop :=
  (∀ (s : State) (bytes : List Byte) (framing : Bool) (elapsed : Nat), s.blk.live = true →
    let f := s.blk.field
    (f.lineDriven = true → exec (.frameClosed bytes framing elapsed) s = .next s) ∧
    (f.lineDriven = false → (∀ e, f.exchange = some e → e.phase ≠ .receiving) →
      ∃ t, exec (.frameClosed bytes framing elapsed) s = .next t ∧
        FollowsFrom (s.setBlk (s.blk.setField { f with lateFrames := inc16 f.lateFrames })) t) ∧
    ∀ (a : Fin 24) (sel : Bool), f.lineDriven = false → f.exchange = some ⟨a, .receiving, sel⟩ →
      ∃ t, exec (.frameClosed bytes framing elapsed) s = .next t ∧ t.mem = s.mem ∧ t.motion = s.motion ∧
        (∀ e, t.blk.field.exchange = some e → e.phase = .quiet) ∧ t.blk.field.lateFrames = f.lateFrames ∧
        match judgeReply (a.val + 1) (decide (a.val < 16)) sel framing bytes with
        | .ok r =>
            let m := f.module[a]
            let value := min 1000 r.2
            let faulted := r.1.fault = true ∧ m.faultMarker = false
            let pasteLow := sel = false ∧ a.val < 16 ∧ value < 100 ∧ ∀ v, m.item0 = some v → 100 ≤ v
            let raised (k : CauseKind) (level : Level) (claimed : Prop) : Prop :=
              (claimed → ∃ cs, Raised k (a.val + 1) level s.blk.causes cs ∧
                t.blk.causes.entry k = cs.entry k) ∧
              (¬ claimed → t.blk.causes.entry k = s.blk.causes.entry k)
            t.blk.field.module[a] = { (if configured s.ctx s.blk a then m.answered else m) with
              lastGood := some r.1, faultMarker := r.1.fault, selector := !m.selector
              item0 := if sel then m.item0 else some value, item1 := if sel then some value else m.item1 } ∧
            (∀ j : Fin 24, j ≠ a → t.blk.field.module[j] = f.module[j]) ∧ t.blk.field.missCounts = f.missCounts ∧
            raised .moduleFault .hold faulted ∧ raised .pasteLow .report pasteLow ∧
            (configured s.ctx s.blk a = false → t.blk.stations = s.blk.stations ∧ t.blk.oven = s.blk.oven ∧
              t.blk.track = s.blk.track) ∧
            (∀ (k : Fin 16) position error fault, moduleScreen a = some k → r.1 = .screen position error fault →
              configured s.ctx s.blk a = true → ∃ b : Blocks, b.stations = s.blk.stations ∧ b.track = s.blk.track ∧
                b.cache = s.blk.cache ∧ (∀ j : Fin 24, j ≠ a → b.field.module[j] = f.module[j]) ∧
                b.field.module[a].online = m.answered.online ∧
                t.blk.stations = (liftReport s.ctx k position (registration k error b)).stations ∧
                t.blk.track = (liftReport s.ctx k position (registration k error b)).track) ∧
            ∀ (z : Fin 8) temp fault, moduleZone a = some z → r.1 = .zone temp fault →
              configured s.ctx s.blk a = true →
              t.blk.oven.zone[z] = { s.blk.oven.zone[z] with temp := temp } ∧
              ∀ j : Fin 8, j ≠ z → t.blk.oven.zone[j] = s.blk.oven.zone[j]
        | .error reason => MissTaken s a reason t) ∧
  ∀ (address : Nat) (screen selector framing : Bool) (bytes : List Byte),
    let judged := judgeReply address screen selector framing bytes
    (framing = true → judged = .error .framing) ∧
    (framing = false → bytes.length ≠ 7 → judged = .error .length) ∧
    ∀ b1 b2 b3 b4 b5 b6 b7 : Byte, framing = false → bytes = [b1, b2, b3, b4, b5, b6, b7] →
      let value := 256 * b3.toNat + b4.toNat
      let item := 256 * b5.toNat + b6.toNat
      let fault := b2.getLsbD 2
      (crc8 [b1, b2, b3, b4, b5, b6] ≠ b7 → judged = .error .crc) ∧
      (crc8 [b1, b2, b3, b4, b5, b6] = b7 → b1.toNat ≠ address → judged = .error .address) ∧
      (crc8 [b1, b2, b3, b4, b5, b6] = b7 → b1.toNat = address →
        (b2.getLsbD 3 ≠ selector → judged = .error .content) ∧
        (b2.getLsbD 3 = selector → screen = true →
          (b2.toNat % 4 = 3 → judged = .error .content) ∧
          ∀ position : LiftPosition, b2.toNat % 4 = (match position with
            | .up => 0
            | .down => 1
            | .moving => 2) →
            judged = .ok (.screen position (if value < 32768 then (value : Int) else (value : Int) - 65536) fault, item)) ∧
        (b2.getLsbD 3 = selector → screen = false →
          (2500 < value → judged = .error .content) ∧
          (value ≤ 2500 → judged = .ok (.zone value fault, item))))

/-! ### Report unit (09) -/

/-- A record write: a burst's completion leaves the rest; the word 0 write's makes the slot full, takes the record from
the queue, advances the write index and counts the record by its kind; a read stalled on the slot is released
(R160, R161, R163). -/
def Obligations.RecordWritesFillTheRing : Prop :=
  (∀ (s : State) (a : Access) (decision : Decision) (u u' : Burst) (rest : List Burst), CarriesAccess s a →
    a.kind = .recordBurst → s.blk.report.recordWrite = some (u :: u' :: rest) →
    ∃ t, exec (.recordBurstComplete decision) s = .next t ∧
      AccessLeaves s a (s.blk.setReport { s.blk.report with recordWrite := some (u' :: rest) }) t) ∧
  ∀ (s : State) (a : Access) (decision : Decision) (rec : OutRecord) (rest : List OutRecord), CarriesAccess s a →
    a.kind = .recordWord0 → s.blk.report.queue = rec :: rest →
    let r := s.blk.report
    let r' := { r with
      full := r.full.set r.writeIndex true
      queue := rest
      recordWrite := none
      writeIndex := if r.writeIndex + 1 < s.cfg.outcomeSlots then r.writeIndex + 1 else 0
      segmentsWritten := if rec.segment then r.segmentsWritten + 1 else r.segmentsWritten
      rejectionsWritten := if rec.segment then r.rejectionsWritten else r.rejectionsWritten + 1 }
    ((∀ x, s.blk.path.host ≠ .stalled x) → ∃ t, exec (.recordWord0Complete decision) s = .next t ∧
      AccessLeaves s a (s.blk.setReport r') t) ∧
    (∀ x, s.blk.path.host = .stalled x → ∃ t, exec (.recordWord0Complete decision) s = .next t ∧
      AccessLeaves s a (s.blk.setReport { r' with stallTimer := none, stallsFilled := inc16 r.stallsFilled }) t ∧
      (t.blk.path.host = .portWait x ∨ ∃ j, t.blk.path.host = .carrying x 0 j))

/-- A full-word zero to word 0 of a full slot frees it (R162); while a warm arming rebuilds the map, of a slot already
read (R196). The page select word sets the page in force and owes a rewrite (R165); so does the status timer's expiry,
which restarts itself (R166); a status burst's completion leaves the rest of its rewrite. -/
def Obligations.SlotsAreFreedAndRewritesOwed : Prop :=
  (∀ (s : State) (w : CarriedWord) (v : WriteWord) (k : Nat) (decision : Decision), CarriesWrite s w v .outcome (32 * k) →
      v.enables = 0xF#4 → v.value = 0 → s.blk.report.full.getD k false = true →
      (∀ n id, s.blk.restart.mapNext = some (n, id) → k < n) →
      ∃ t, exec (.outcomeSlotFree decision) s = .next t ∧
        WordLeaves s w v (s.blk.setReport { s.blk.report with full := s.blk.report.full.set k false }) t) ∧
  ((∀ (s : State) (w : CarriedWord) (v : WriteWord) (decision : Decision), CarriesWrite s w v .status 57 →
      v.enables = 0xF#4 → v.value.toNat ≤ 12 → ∃ t, exec (.pageSelect decision) s = .next t ∧
        WordLeaves s w v (s.blk.setReport { s.blk.report with page := v.value.toNat, rewriteOwed := true }) t) ∧
    (∀ (s : State) (n : Nat), s.blk.report.statusTimer = some n → ∃ t, exec .statusTimerExpiry s = .next t ∧
      FollowsFrom (s.setBlk (s.blk.setReport { s.blk.report with
        statusTimer := some s.cfg.statusInterval, rewriteOwed := true })) t) ∧
    ∀ (s : State) (a : Access) (decision : Decision) (u : Burst) (rest : List Burst), CarriesAccess s a →
      a.kind = .statusBurst → s.blk.report.rewrite = some (u :: rest) →
      ∃ t, exec (.statusBurstComplete decision) s = .next t ∧ AccessLeaves s a (s.blk.setReport { s.blk.report with
        rewrite := if rest = [] then none else some rest }) t)

/-! ### Path unit (10) -/

/-- An access of no words or of more than 8 is none, and stops the model (R171; log 32, the model's choice). An empty host
port takes an access: it waits for its grant, or is carried, or is stalled with the stall timer started (R172). That an
access presented to a port that is not empty is not taken, and answers next with nothing changed, is log 3, the model's
choice. The freeze is judged at the taking: a read whose first word is word 0 of the status block puts it in force, and a
rewrite in progress is then abandoned and owed again, but for one whose last burst is being carried (log 33, DEDUCED); any
other read that includes word 63 of the block, or access that touches a word outside it, ends the freeze (R167; that empty
write words do so too is log 58, the model's choice). A read stalls that begins at word 0 of the free write index slot,
with no record waiting, a stall limit that is not 0 and the part ARMED or ARMING from ARMED (R163; no outcome map being
rebuilt). The stall timer's expiry ends the stall, and the read waits for its grant (R163). -/
def Obligations.HostPortTakesAnAccess : Prop :=
  (∀ (a : HostAccess) (s : State), a.count = 0 ∨ 8 < a.count → exec (.hostAccessPresented a) s = .fault .notAnAccess) ∧
  (∀ (s : State) (a : HostAccess), a.wf = true →
      (s.blk.path.host = .empty → ∃ t, exec (.hostAccessPresented a) s = .next t ∧ t.mem = s.mem ∧ t.cfg = s.cfg ∧
        t.motion = s.motion ∧ t.blk.track = s.blk.track ∧ t.blk.causes = s.blk.causes ∧ t.blk.waitLine = true ∧
        (stalls s.ctx s.blk a = true → t.blk.path.host = .stalled a ∧
          t.blk.report.stallTimer = some s.cfg.stallLimit ∧
          t.blk.report.stallsBegun = inc16 s.blk.report.stallsBegun) ∧
        (stalls s.ctx s.blk a = false → t.blk.path.host = .portWait a ∨
          t.blk.path.host = .carrying a 0 (judgeWord t.ctx t.blk a 0)) ∧
        let word (i : Nat) := windowOf s.ctx s.blk (hostWordAt a i)
        let starts := accessReads a = true ∧ word 0 = (.status, 0)
        let ends := (accessReads a = true ∧ ∃ i < a.count, word i = (.status, 63)) ∨ ∃ i < a.count, (word i).1 ≠ .status
        (starts → t.blk.path.freeze = true) ∧ (¬ starts → ends → t.blk.path.freeze = false) ∧
        (¬ starts → ¬ ends → t.blk.path.freeze = s.blk.path.freeze) ∧
        (starts → s.blk.path.freeze = false → s.blk.report.rewrite.isSome = true → lastBurstCarried s.blk = false →
          t.blk.report.rewrite = none ∧ t.blk.report.rewriteOwed = true)) ∧
      (s.blk.path.host ≠ .empty → exec (.hostAccessPresented a) s = .next s)) ∧
  (∀ (x : Ctx) (b : Blocks) (addr : BitVec 22) (n : Nat) (slot : Nat), 0 < n →
      windowOf x b addr.toNat = (.outcome, 32 * slot) → b.restart.mapNext = none →
      (stalls x b (.read addr n) = true ↔ b.live = true ∧ x.cfg.stallLimit ≠ 0 ∧ slot = b.report.writeIndex ∧
        b.report.full.getD slot false = false ∧ b.report.queue = [])) ∧
  (∀ (s : State) (n : Nat) (x : HostAccess), s.blk.report.stallTimer = some n → s.blk.path.host = .stalled x →
      ∃ t, exec .stallTimerExpiry s = .next t ∧ FollowsButPath (s.setBlk (s.blk.setReport { s.blk.report with
          stallTimer := none, stallsExpired := inc16 s.blk.report.stallsExpired })) t ∧
        (t.blk.path.host = .portWait x ∨ ∃ j, t.blk.path.host = .carrying x 0 j))

/-- Every non-empty word that falls in the SNAPSHOT window is dropped, whatever its offset and enables: memory keeps its
bytes, the drop is counted, nothing is raised, and the snapshot the restart unit holds stays. Reads of the window pass,
and so does a write while the part is DORMANT or ARMING from DORMANT; the part's own writes are carried (R177). -/
def Obligations.SnapshotWindowDropsWrites : Prop :=
  (∀ (x : Ctx) (b : Blocks) (a : HostAccess) (i : Nat) (v : WriteWord) (off : Nat), hostWriteWord a i = some v →
    v.enables ≠ 0 → windowOf x b (hostWordAt a i) = (.snapshot, off) → judgeWord x b a i = .dropSnapshot) ∧
  (∀ (s : State) (w : CarriedWord) (decision : Decision), s.blk.path.carried = some w → w.judged = .dropSnapshot →
    ∃ t, exec (.snapshotWindowWrite decision) s = .next t ∧ t.mem = s.mem ∧
      t.blk.path.dropped = inc32 s.blk.path.dropped ∧ FollowsButPath s t) ∧
  (∀ (x : Ctx) (b : Blocks) (addr : BitVec 22) (n i : Nat), judgeWord x b (.read addr n) i = .pass) ∧
  (∀ (x : Ctx) (b : Blocks) (a : HostAccess) (i : Nat), b.live = false → judgeWord x b a i = .pass) ∧
  ∀ (s : State) (a : Access) (decision : Decision), CarriesAccess s a → a.kind = .snapshotWrite →
    ∃ t, exec (.snapshotBurstComplete decision) s = .next t ∧ t.mem = s.mem.carry a ∧
      t.blk.path.dropped = s.blk.path.dropped

/-- A grant at a free port: the host while its run count is below 4, the count rising where an internal request waits;
at a count of 4 with an internal request, and with no host request, the highest-ranked internal request, the count
becoming 0 (R181, R182). No grant is made at a port that is not free. Where the sender has two events come at one moment and
the second takes place, the first one's step leaves the decision to the second's, which makes one among the requests of
both. Everywhere else a step makes its own, among every request, or, at a completion, among the earlier ones where any still
is (R182; that the sender chooses is log 9, the model's choice). -/
def Obligations.ArbiterGrantsByRank : Prop :=
  (∀ (x : Ctx) (b : Blocks), b.path.port = .free →
    let b' := arbitrate x .all b
    (∀ a, b.path.host = .portWait a → b.path.hostRun < 4 ∨ b.path.waiting = [] → b'.path.port = .host ∧
      b'.path.host = .carrying a 0 (judgeWord x b a 0) ∧ b'.path.slots = b.path.slots ∧
      b'.path.hostRun = (if b.path.waiting = [] then b.path.hostRun else b.path.hostRun + 1)) ∧
    (∀ r rest q, b.path.waiting = r :: rest → b.path.slot r = some q →
      (∀ a, b.path.host ≠ .portWait a) ∨ 4 ≤ b.path.hostRun →
      b'.path.port = .internal q false ∧ b'.path.hostRun = 0 ∧ b'.path.slot r = none ∧
      b'.path.host = b.path.host ∧ ∀ r', (b.path.slot r').isSome = true → r.rank ≤ r'.rank)) ∧
  (∀ (x : Ctx) (w : Weigh) (b : Blocks), b.path.port ≠ .free → arbitrate x w b = b) ∧
  ((∀ (x : Ctx) (b : Blocks), arbitrate x .held b = b) ∧
    (∀ (s : State) (pre : Requests), Weigh.of pre s.joined .withNew = .held ↔ s.moments.head? = some true ∧
      ∃ c rest, s.pending = c :: rest ∧ s.decides c = true) ∧
    (∀ (s : State) (c : Instr), s.decides c = true → ∃ t : State,
      exec c s = .next (t.decided s.blk.path.requests .withNew) ∧ t.pending = s.pending ∧ t.moments = s.moments) ∧
    ∀ (s : State) (c : Instr), (s.settled .held).decides c = s.decides c) ∧
  ∀ (x : Ctx) (q : Requests) (joined : Bool) (b : Blocks) (r : Requester) (rest : List Requester), b.path.port = .free →
    b.path.waiting.filter (fun r => q.ints.contains r) = r :: rest →
    (q.host = false → ∃ a, b.path.slot r = some a ∧ (arbitrate x (.among q joined) b).path.port = .internal a false)

/-! ### Restart unit (11) -/

/-- A full-word nonzero write to anchor word 63 is an arming request. A DORMANT part, and an ARMED one that is HALTED,
enters ARMING and owes PENDING; any other owes REFUSED_BUSY (R186, R188). -/
def Obligations.ArmingRequestsAreJudged : Prop :=
  ∀ (s : State) (w : CarriedWord) (v : WriteWord) (decision : Decision), CarriesWrite s w v .anchor 63 →
    v.enables = 0xF#4 → v.value ≠ 0 →
    let r := s.blk.restart
    let id := v.value.extractLsb' 0 16
    let accepted (fromArmed : Bool) : Restart := { r with
      part := .arming fromArmed, arming := some ⟨id, .anchor, [], [], []⟩
      work := r.work ++ [.result .pending id, .readArming] }
    ∃ t, exec (.armingRequest decision) s = .next t ∧
      (r.part = .dormant → WordLeaves s w v (s.blk.setRestart (accepted false)) t) ∧
      (r.part = .armed → s.motion.state = .halted → WordLeaves s w v (s.blk.setRestart (accepted true)) t) ∧
      (r.part = .armed → s.motion.state ≠ .halted →
        WordLeaves s w v (s.blk.setRestart { r with work := r.work ++ [.result .refusedBusy id] }) t) ∧
      (∀ f, r.part = .arming f →
        WordLeaves s w v (s.blk.setRestart { r with work := r.work ++ [.result .refusedBusy id] }) t)

/-- The restart unit takes up its work in order: a result word goes to anchor word 62 with the identifier in its low half
and the code above it, the start word WARM to word 61, and each ends its piece of work (R188, R191). With the last result
word of an arming refused from DORMANT the part is DORMANT again (R186, R189; log 19, the model's choice of the moment). -/
def Obligations.ResultWordsAreWrittenInOrder : Prop :=
  (∀ (c : Anchor) (r : Restart) (code : ResultCode) (id : BitVec 16) (rest : List Work),
    r.work = .result code id :: rest → ∃ v : Word,
      restartAccess c r = some ⟨.resultWrite, 62, 1, some [v]⟩ ∧ v.extractLsb' 0 16 = id ∧
      (v.extractLsb' 16 16).toNat = code.code) ∧
  (∀ (c : Anchor) (r : Restart) (rest : List Work), r.work = .startWord :: rest →
    restartAccess c r = some ⟨.startWrite, 61, 1, some [0x0000574D#32]⟩) ∧
  ∀ (s : State) (a : Access) (decision : Decision), CarriesAccess s a →
    a.kind = .resultWrite ∨ a.kind = .startWrite →
    let r := s.blk.restart
    let ended := r.part = .arming false ∧ r.arming = none ∧ r.work.tail = []
    ∃ t, exec (.resultWordWritten decision) s = .next t ∧
      (ended → AccessLeaves s a (s.blk.setRestart { r with work := [], part := .dormant }) t) ∧
      (¬ ended → AccessLeaves s a (s.blk.setRestart { r with work := r.work.tail }) t)

/-- The anchor is read in bursts; after the last, an anchor that fails a check refuses the arming with the check's code,
and one that passes is followed by the mount window. The checks run in order: cookie, closing check, windows, geometry and
parameters (R189). When a refused arming leaves ARMING (from ARMED at once, from DORMANT with its last result word) is
log 19, the model's choice. -/
def Obligations.AnchorIsReadAndChecked : Prop :=
  (∀ (s : State) (a : Access) (decision : Decision) (arm : Arming), CarriesAccess s a → a.kind = .anchorRead →
      s.blk.restart.arming = some arm →
      let all := arm.anchor ++ readBy s a
      ∃ t, exec (.anchorBurstReturned decision) s = .next t ∧
        (all.length < 64 → AccessLeaves s a
          (s.blk.setRestart { s.blk.restart with arming := some { arm with anchor := all } }) t) ∧
        (64 ≤ all.length → ∀ code, anchorFault all = some code → ArmingRefused code arm.id s a t) ∧
        (64 ≤ all.length → anchorFault all = none → AccessLeaves s a
          (s.blk.setRestart { s.blk.restart with arming := some { arm with anchor := all, phase := .mount } }) t)) ∧
  (∀ ws : List Word,
      (wordAt ws 0 ≠ 0x24160A00#32 → anchorFault ws = some .badCookie) ∧
      (wordAt ws 0 = 0x24160A00#32 → validClosing (wordAt ws 63) = false → anchorFault ws = some .badCheck) ∧
      (wordAt ws 0 = 0x24160A00#32 → validClosing (wordAt ws 63) = true →
        (windowsOk (parseAnchor ws) = false → anchorFault ws = some .badWindows) ∧
        (windowsOk (parseAnchor ws) = true →
          geometryOk (parseAnchor ws) = false ∨ parametersOk (parseAnchor ws) = false →
          anchorFault ws = some .badGeometry) ∧
        (windowsOk (parseAnchor ws) = true → geometryOk (parseAnchor ws) = true → parametersOk (parseAnchor ws) = true →
          anchorFault ws = none)))

/-- The mount window is read in bursts; after the last, one that fails its check refuses the arming with BAD_MOUNT, and
with any start word but WARM the arming is cold. A WARM start word asks for a halted line (R189, R191, R194). When a
refused arming leaves ARMING is log 19, and that one admission and closure trigger one snapshot is log 40, the model's
choices; the order of the words owed is log 20 (DEDUCED). -/
def Obligations.MountWindowDecidesTheArming : Prop :=
  ∀ (s : State) (a : Access) (decision : Decision) (arm : Arming), CarriesAccess s a → a.kind = .mountRead →
    s.blk.restart.arming = some arm →
    let arm' := { arm with mount := arm.mount ++ readBy s a }
    let warm := wordAt arm.anchor 61 = 0x0000574D#32
    let ok := mountOk (parseAnchor arm.anchor) arm'.mount
    ∃ t, exec (.mountBurstReturned decision) s = .next t ∧ t.mem = s.mem.carry a ∧
      (arm'.mount.length < 96 → AccessLeaves s a (s.blk.setRestart { s.blk.restart with arming := some arm' }) t) ∧
      (96 ≤ arm'.mount.length → ok = false → ArmingRefused .badMount arm.id s a t) ∧
      (96 ≤ arm'.mount.length → ok = true → ¬ warm → ColdState .armedCold arm' s t) ∧
      (96 ≤ arm'.mount.length → ok = true → warm → s.motion.state ≠ .halted →
        ArmingRefused .refusedBusy arm.id s a t) ∧
      (96 ≤ arm'.mount.length → ok = true → warm → s.motion.state = .halted →
        AccessLeaves s a (s.blk.setRestart { s.blk.restart with
          arming := some { arm' with phase := .snapshot }, moved := false }) t)

/-- The snapshot is read; a unit event meanwhile refuses the arming, an invalid snapshot makes it cold, and a valid one
restores the track, the plan ring and the retirement queue at the corrected H (R194, R195). That the moved marker is
judged before the snapshot's validity is log 21, with what decodeSnapshot reads in words that contradict each other, and
when a refused arming leaves ARMING is log 19, the model's choices. -/
def Obligations.SnapshotDecidesTheWarmArming : Prop :=
  ∀ (s : State) (a : Access) (decision : Decision) (arm : Arming), CarriesAccess s a → a.kind = .snapshotRead →
    s.blk.restart.arming = some arm →
    let arm' := { arm with snapshot := arm.snapshot ++ readBy s a }
    let c := parseAnchor arm.anchor
    let d := decodeSnapshot arm'.snapshot
    let full := snapshotDone arm'.snapshot = true
    ∃ t, exec (.snapshotReadReturned decision) s = .next t ∧ t.mem = s.mem.carry a ∧
      (¬ full → AccessLeaves s a (s.blk.setRestart { s.blk.restart with arming := some arm' }) t) ∧
      (full → s.blk.restart.moved = true → ArmingRefused .refusedBusy arm.id s a t) ∧
      (full → s.blk.restart.moved = false → snapshotValid c arm'.snapshot = false →
        ColdState .armedColdTrackLost arm' s t) ∧
      (full → s.blk.restart.moved = false → snapshotValid c arm'.snapshot = true →
        t.cfg = c ∧ (t.motion.p : Int) = d.h + c.restartCorrection ∧ t.motion.h = t.motion.p ∧
        t.motion.residue = 0 ∧ t.motion.encErrors = s.motion.encErrors ∧ t.blk.restart.part = .armed ∧
        t.blk.track.segs.map segmentShape = d.segs.map segmentShape ∧ t.blk.track.boundary = d.boundary ∧
        t.blk.track.seams = d.seams ∧ t.blk.track.debounce = d.debounce ∧ t.blk.track.seqCounter = d.seqCounter ∧
        t.blk.track.starvedHold = d.starved ∧ t.blk.plan.postIndex = d.postIndex ∧
        t.blk.plan.takeIndex = d.takeIndex ∧ t.blk.plan.posted = d.posted ∧ t.blk.cues.queue = [] ∧
        t.blk.report.queue = d.queue ∧ t.blk.report.writeIndex = d.writeIndex ∧
        t.blk.restart.generation = d.generation ∧ t.blk.restart.mapNext = some (0, arm.id))

/-- After a warm result word 0 of each outcome slot is read in turn: nonzero makes the slot full; after the last,
ARMED_WARM is owed (R196). A snapshot write: a burst's completion leaves the rest; the closing word's makes the new
generation the snapshot's and ends the write, and a set pending flag begins a further one while the part is ARMED (R192,
R193). -/
def Obligations.OutcomeMapAndSnapshotWrites : Prop :=
  (∀ (s : State) (a : Access) (decision : Decision) (k : Nat) (id : BitVec 16), CarriesAccess s a → a.kind = .mapRead →
      s.blk.restart.mapNext = some (k, id) →
      let full := s.blk.report.full.set k (decide (wordAt (readBy s a) 0 ≠ 0))
      ∃ t, exec (.outcomeMapReadReturned decision) s = .next t ∧ t.mem = s.mem.carry a ∧ t.blk.report.full = full ∧
        t.blk.track = s.blk.track ∧ t.blk.causes = s.blk.causes ∧
        (k + 1 < s.cfg.outcomeSlots → t.blk.restart.mapNext = some (k + 1, id) ∧
          t.blk.restart.work = s.blk.restart.work) ∧
        (s.cfg.outcomeSlots ≤ k + 1 → t.blk.restart.mapNext = none ∧ Work.result .armedWarm id ∈ t.blk.restart.work)) ∧
  ((∀ (s : State) (a : Access) (decision : Decision) (g : BitVec 16) (u : Burst) (rest : List Burst), CarriesAccess s a →
      a.kind = .snapshotWrite → s.blk.restart.writing = some ⟨g, u :: rest⟩ →
      ∃ t, exec (.snapshotBurstComplete decision) s = .next t ∧
        AccessLeaves s a (s.blk.setRestart { s.blk.restart with writing := some ⟨g, rest⟩ }) t) ∧
    ∀ (s : State) (a : Access) (decision : Decision) (g : BitVec 16) (rest : List Burst), CarriesAccess s a →
      a.kind = .snapshotClosing → s.blk.restart.writing = some ⟨g, rest⟩ →
      let r := s.blk.restart
      ∃ t, exec (.snapshotClosingComplete decision) s = .next t ∧ t.mem = s.mem.carry a ∧
        t.blk.restart.generation = g ∧ t.blk.restart.part = r.part ∧ t.blk.track = s.blk.track ∧
        t.blk.causes = s.blk.causes ∧
        (r.snapshotPending = false ∨ r.part ≠ .armed →
          t.blk.restart.work = r.work.tail ∧ t.blk.restart.snapshotPending = r.snapshotPending) ∧
        (r.snapshotPending = true → r.part = .armed →
          t.blk.restart.work = r.work.tail ++ [.snapshot] ∧ t.blk.restart.snapshotPending = false))
end

