-- ==== Sys2Proof/Laws/State.lean ====
section
/-! SUPPORT. One lemma for each field after each update of a state and of its blocks. -/

namespace Sys2Proof.Machine

section State
variable (s : State)
@[simp] theorem State.setCfg_cfg (v : Anchor) : (s.setCfg v).cfg = v := rfl
@[simp] theorem State.setCfg_motion (v : Anchor) : (s.setCfg v).motion = s.motion := rfl
@[simp] theorem State.setCfg_blk (v : Anchor) : (s.setCfg v).blk = s.blk := rfl
@[simp] theorem State.setCfg_mem (v : Anchor) : (s.setCfg v).mem = s.mem := rfl
@[simp] theorem State.setCfg_pending (v : Anchor) : (s.setCfg v).pending = s.pending := rfl
@[simp] theorem State.setCfg_moments (v : Anchor) : (s.setCfg v).moments = s.moments := rfl
@[simp] theorem State.setMotion_cfg (v : Motion) : (s.setMotion v).cfg = s.cfg := rfl
@[simp] theorem State.setMotion_motion (v : Motion) : (s.setMotion v).motion = v := rfl
@[simp] theorem State.setMotion_blk (v : Motion) : (s.setMotion v).blk = s.blk := rfl
@[simp] theorem State.setMotion_mem (v : Motion) : (s.setMotion v).mem = s.mem := rfl
@[simp] theorem State.setMotion_pending (v : Motion) : (s.setMotion v).pending = s.pending := rfl
@[simp] theorem State.setMotion_moments (v : Motion) : (s.setMotion v).moments = s.moments := rfl
@[simp] theorem State.setBlk_cfg (v : Blocks) : (s.setBlk v).cfg = s.cfg := rfl
@[simp] theorem State.setBlk_motion (v : Blocks) : (s.setBlk v).motion = s.motion := rfl
@[simp] theorem State.setBlk_blk (v : Blocks) : (s.setBlk v).blk = v := rfl
@[simp] theorem State.setBlk_mem (v : Blocks) : (s.setBlk v).mem = s.mem := rfl
@[simp] theorem State.setBlk_pending (v : Blocks) : (s.setBlk v).pending = s.pending := rfl
@[simp] theorem State.setBlk_moments (v : Blocks) : (s.setBlk v).moments = s.moments := rfl
@[simp] theorem State.setMem_cfg (v : Memory) : (s.setMem v).cfg = s.cfg := rfl
@[simp] theorem State.setMem_motion (v : Memory) : (s.setMem v).motion = s.motion := rfl
@[simp] theorem State.setMem_blk (v : Memory) : (s.setMem v).blk = s.blk := rfl
@[simp] theorem State.setMem_mem (v : Memory) : (s.setMem v).mem = v := rfl
@[simp] theorem State.setMem_pending (v : Memory) : (s.setMem v).pending = s.pending := rfl
@[simp] theorem State.setMem_moments (v : Memory) : (s.setMem v).moments = s.moments := rfl
@[simp] theorem State.setPending_cfg (v : List Instr) : (s.setPending v).cfg = s.cfg := rfl
@[simp] theorem State.setPending_motion (v : List Instr) : (s.setPending v).motion = s.motion := rfl
@[simp] theorem State.setPending_blk (v : List Instr) : (s.setPending v).blk = s.blk := rfl
@[simp] theorem State.setPending_mem (v : List Instr) : (s.setPending v).mem = s.mem := rfl
@[simp] theorem State.setPending_pending (v : List Instr) : (s.setPending v).pending = v := rfl
@[simp] theorem State.setPending_moments (v : List Instr) : (s.setPending v).moments = s.moments := rfl
@[simp] theorem State.setMoments_cfg (v : List Bool) : (s.setMoments v).cfg = s.cfg := rfl
@[simp] theorem State.setMoments_motion (v : List Bool) : (s.setMoments v).motion = s.motion := rfl
@[simp] theorem State.setMoments_blk (v : List Bool) : (s.setMoments v).blk = s.blk := rfl
@[simp] theorem State.setMoments_mem (v : List Bool) : (s.setMoments v).mem = s.mem := rfl
@[simp] theorem State.setMoments_pending (v : List Bool) : (s.setMoments v).pending = s.pending := rfl
@[simp] theorem State.setMoments_moments (v : List Bool) : (s.setMoments v).moments = v := rfl
@[simp] theorem State.setBlk_ctx (v : Blocks) : (s.setBlk v).ctx = s.ctx := rfl
@[simp] theorem State.setMem_ctx (v : Memory) : (s.setMem v).ctx = s.ctx := rfl
@[simp] theorem State.setPending_ctx (v : List Instr) : (s.setPending v).ctx = s.ctx := rfl
@[simp] theorem State.setMoments_ctx (v : List Bool) : (s.setMoments v).ctx = s.ctx := rfl
end State

section Blocks
variable (b : Blocks)
@[simp] theorem Blocks.setCauses_causes (v : CauseSet) : (b.setCauses v).causes = v := rfl
@[simp] theorem Blocks.setCauses_track (v : CauseSet) : (b.setCauses v).track = b.track := rfl
@[simp] theorem Blocks.setCauses_plan (v : CauseSet) : (b.setCauses v).plan = b.plan := rfl
@[simp] theorem Blocks.setCauses_cache (v : CauseSet) : (b.setCauses v).cache = b.cache := rfl
@[simp] theorem Blocks.setCauses_cues (v : CauseSet) : (b.setCauses v).cues = b.cues := rfl
@[simp] theorem Blocks.setCauses_stations (v : CauseSet) : (b.setCauses v).stations = b.stations := rfl
@[simp] theorem Blocks.setCauses_oven (v : CauseSet) : (b.setCauses v).oven = b.oven := rfl
@[simp] theorem Blocks.setCauses_field (v : CauseSet) : (b.setCauses v).field = b.field := rfl
@[simp] theorem Blocks.setCauses_report (v : CauseSet) : (b.setCauses v).report = b.report := rfl
@[simp] theorem Blocks.setCauses_path (v : CauseSet) : (b.setCauses v).path = b.path := rfl
@[simp] theorem Blocks.setCauses_restart (v : CauseSet) : (b.setCauses v).restart = b.restart := rfl
@[simp] theorem Blocks.setTrack_causes (v : Track) : (b.setTrack v).causes = b.causes := rfl
@[simp] theorem Blocks.setTrack_track (v : Track) : (b.setTrack v).track = v := rfl
@[simp] theorem Blocks.setTrack_plan (v : Track) : (b.setTrack v).plan = b.plan := rfl
@[simp] theorem Blocks.setTrack_cache (v : Track) : (b.setTrack v).cache = b.cache := rfl
@[simp] theorem Blocks.setTrack_cues (v : Track) : (b.setTrack v).cues = b.cues := rfl
@[simp] theorem Blocks.setTrack_stations (v : Track) : (b.setTrack v).stations = b.stations := rfl
@[simp] theorem Blocks.setTrack_oven (v : Track) : (b.setTrack v).oven = b.oven := rfl
@[simp] theorem Blocks.setTrack_field (v : Track) : (b.setTrack v).field = b.field := rfl
@[simp] theorem Blocks.setTrack_report (v : Track) : (b.setTrack v).report = b.report := rfl
@[simp] theorem Blocks.setTrack_path (v : Track) : (b.setTrack v).path = b.path := rfl
@[simp] theorem Blocks.setTrack_restart (v : Track) : (b.setTrack v).restart = b.restart := rfl
@[simp] theorem Blocks.setPlan_causes (v : Plan) : (b.setPlan v).causes = b.causes := rfl
@[simp] theorem Blocks.setPlan_track (v : Plan) : (b.setPlan v).track = b.track := rfl
@[simp] theorem Blocks.setPlan_plan (v : Plan) : (b.setPlan v).plan = v := rfl
@[simp] theorem Blocks.setPlan_cache (v : Plan) : (b.setPlan v).cache = b.cache := rfl
@[simp] theorem Blocks.setPlan_cues (v : Plan) : (b.setPlan v).cues = b.cues := rfl
@[simp] theorem Blocks.setPlan_stations (v : Plan) : (b.setPlan v).stations = b.stations := rfl
@[simp] theorem Blocks.setPlan_oven (v : Plan) : (b.setPlan v).oven = b.oven := rfl
@[simp] theorem Blocks.setPlan_field (v : Plan) : (b.setPlan v).field = b.field := rfl
@[simp] theorem Blocks.setPlan_report (v : Plan) : (b.setPlan v).report = b.report := rfl
@[simp] theorem Blocks.setPlan_path (v : Plan) : (b.setPlan v).path = b.path := rfl
@[simp] theorem Blocks.setPlan_restart (v : Plan) : (b.setPlan v).restart = b.restart := rfl
@[simp] theorem Blocks.setCache_causes (v : Cache) : (b.setCache v).causes = b.causes := rfl
@[simp] theorem Blocks.setCache_track (v : Cache) : (b.setCache v).track = b.track := rfl
@[simp] theorem Blocks.setCache_plan (v : Cache) : (b.setCache v).plan = b.plan := rfl
@[simp] theorem Blocks.setCache_cache (v : Cache) : (b.setCache v).cache = v := rfl
@[simp] theorem Blocks.setCache_cues (v : Cache) : (b.setCache v).cues = b.cues := rfl
@[simp] theorem Blocks.setCache_stations (v : Cache) : (b.setCache v).stations = b.stations := rfl
@[simp] theorem Blocks.setCache_oven (v : Cache) : (b.setCache v).oven = b.oven := rfl
@[simp] theorem Blocks.setCache_field (v : Cache) : (b.setCache v).field = b.field := rfl
@[simp] theorem Blocks.setCache_report (v : Cache) : (b.setCache v).report = b.report := rfl
@[simp] theorem Blocks.setCache_path (v : Cache) : (b.setCache v).path = b.path := rfl
@[simp] theorem Blocks.setCache_restart (v : Cache) : (b.setCache v).restart = b.restart := rfl
@[simp] theorem Blocks.setCues_causes (v : Cues) : (b.setCues v).causes = b.causes := rfl
@[simp] theorem Blocks.setCues_track (v : Cues) : (b.setCues v).track = b.track := rfl
@[simp] theorem Blocks.setCues_plan (v : Cues) : (b.setCues v).plan = b.plan := rfl
@[simp] theorem Blocks.setCues_cache (v : Cues) : (b.setCues v).cache = b.cache := rfl
@[simp] theorem Blocks.setCues_cues (v : Cues) : (b.setCues v).cues = v := rfl
@[simp] theorem Blocks.setCues_stations (v : Cues) : (b.setCues v).stations = b.stations := rfl
@[simp] theorem Blocks.setCues_oven (v : Cues) : (b.setCues v).oven = b.oven := rfl
@[simp] theorem Blocks.setCues_field (v : Cues) : (b.setCues v).field = b.field := rfl
@[simp] theorem Blocks.setCues_report (v : Cues) : (b.setCues v).report = b.report := rfl
@[simp] theorem Blocks.setCues_path (v : Cues) : (b.setCues v).path = b.path := rfl
@[simp] theorem Blocks.setCues_restart (v : Cues) : (b.setCues v).restart = b.restart := rfl
@[simp] theorem Blocks.setStations_causes (v : Stations) : (b.setStations v).causes = b.causes := rfl
@[simp] theorem Blocks.setStations_track (v : Stations) : (b.setStations v).track = b.track := rfl
@[simp] theorem Blocks.setStations_plan (v : Stations) : (b.setStations v).plan = b.plan := rfl
@[simp] theorem Blocks.setStations_cache (v : Stations) : (b.setStations v).cache = b.cache := rfl
@[simp] theorem Blocks.setStations_cues (v : Stations) : (b.setStations v).cues = b.cues := rfl
@[simp] theorem Blocks.setStations_stations (v : Stations) : (b.setStations v).stations = v := rfl
@[simp] theorem Blocks.setStations_oven (v : Stations) : (b.setStations v).oven = b.oven := rfl
@[simp] theorem Blocks.setStations_field (v : Stations) : (b.setStations v).field = b.field := rfl
@[simp] theorem Blocks.setStations_report (v : Stations) : (b.setStations v).report = b.report := rfl
@[simp] theorem Blocks.setStations_path (v : Stations) : (b.setStations v).path = b.path := rfl
@[simp] theorem Blocks.setStations_restart (v : Stations) : (b.setStations v).restart = b.restart := rfl
@[simp] theorem Blocks.setOven_causes (v : Oven) : (b.setOven v).causes = b.causes := rfl
@[simp] theorem Blocks.setOven_track (v : Oven) : (b.setOven v).track = b.track := rfl
@[simp] theorem Blocks.setOven_plan (v : Oven) : (b.setOven v).plan = b.plan := rfl
@[simp] theorem Blocks.setOven_cache (v : Oven) : (b.setOven v).cache = b.cache := rfl
@[simp] theorem Blocks.setOven_cues (v : Oven) : (b.setOven v).cues = b.cues := rfl
@[simp] theorem Blocks.setOven_stations (v : Oven) : (b.setOven v).stations = b.stations := rfl
@[simp] theorem Blocks.setOven_oven (v : Oven) : (b.setOven v).oven = v := rfl
@[simp] theorem Blocks.setOven_field (v : Oven) : (b.setOven v).field = b.field := rfl
@[simp] theorem Blocks.setOven_report (v : Oven) : (b.setOven v).report = b.report := rfl
@[simp] theorem Blocks.setOven_path (v : Oven) : (b.setOven v).path = b.path := rfl
@[simp] theorem Blocks.setOven_restart (v : Oven) : (b.setOven v).restart = b.restart := rfl
@[simp] theorem Blocks.setField_causes (v : FieldLine) : (b.setField v).causes = b.causes := rfl
@[simp] theorem Blocks.setField_track (v : FieldLine) : (b.setField v).track = b.track := rfl
@[simp] theorem Blocks.setField_plan (v : FieldLine) : (b.setField v).plan = b.plan := rfl
@[simp] theorem Blocks.setField_cache (v : FieldLine) : (b.setField v).cache = b.cache := rfl
@[simp] theorem Blocks.setField_cues (v : FieldLine) : (b.setField v).cues = b.cues := rfl
@[simp] theorem Blocks.setField_stations (v : FieldLine) : (b.setField v).stations = b.stations := rfl
@[simp] theorem Blocks.setField_oven (v : FieldLine) : (b.setField v).oven = b.oven := rfl
@[simp] theorem Blocks.setField_field (v : FieldLine) : (b.setField v).field = v := rfl
@[simp] theorem Blocks.setField_report (v : FieldLine) : (b.setField v).report = b.report := rfl
@[simp] theorem Blocks.setField_path (v : FieldLine) : (b.setField v).path = b.path := rfl
@[simp] theorem Blocks.setField_restart (v : FieldLine) : (b.setField v).restart = b.restart := rfl
@[simp] theorem Blocks.setReport_causes (v : Report) : (b.setReport v).causes = b.causes := rfl
@[simp] theorem Blocks.setReport_track (v : Report) : (b.setReport v).track = b.track := rfl
@[simp] theorem Blocks.setReport_plan (v : Report) : (b.setReport v).plan = b.plan := rfl
@[simp] theorem Blocks.setReport_cache (v : Report) : (b.setReport v).cache = b.cache := rfl
@[simp] theorem Blocks.setReport_cues (v : Report) : (b.setReport v).cues = b.cues := rfl
@[simp] theorem Blocks.setReport_stations (v : Report) : (b.setReport v).stations = b.stations := rfl
@[simp] theorem Blocks.setReport_oven (v : Report) : (b.setReport v).oven = b.oven := rfl
@[simp] theorem Blocks.setReport_field (v : Report) : (b.setReport v).field = b.field := rfl
@[simp] theorem Blocks.setReport_report (v : Report) : (b.setReport v).report = v := rfl
@[simp] theorem Blocks.setReport_path (v : Report) : (b.setReport v).path = b.path := rfl
@[simp] theorem Blocks.setReport_restart (v : Report) : (b.setReport v).restart = b.restart := rfl
@[simp] theorem Blocks.setPath_causes (v : Path) : (b.setPath v).causes = b.causes := rfl
@[simp] theorem Blocks.setPath_track (v : Path) : (b.setPath v).track = b.track := rfl
@[simp] theorem Blocks.setPath_plan (v : Path) : (b.setPath v).plan = b.plan := rfl
@[simp] theorem Blocks.setPath_cache (v : Path) : (b.setPath v).cache = b.cache := rfl
@[simp] theorem Blocks.setPath_cues (v : Path) : (b.setPath v).cues = b.cues := rfl
@[simp] theorem Blocks.setPath_stations (v : Path) : (b.setPath v).stations = b.stations := rfl
@[simp] theorem Blocks.setPath_oven (v : Path) : (b.setPath v).oven = b.oven := rfl
@[simp] theorem Blocks.setPath_field (v : Path) : (b.setPath v).field = b.field := rfl
@[simp] theorem Blocks.setPath_report (v : Path) : (b.setPath v).report = b.report := rfl
@[simp] theorem Blocks.setPath_path (v : Path) : (b.setPath v).path = v := rfl
@[simp] theorem Blocks.setPath_restart (v : Path) : (b.setPath v).restart = b.restart := rfl
@[simp] theorem Blocks.setRestart_causes (v : Restart) : (b.setRestart v).causes = b.causes := rfl
@[simp] theorem Blocks.setRestart_track (v : Restart) : (b.setRestart v).track = b.track := rfl
@[simp] theorem Blocks.setRestart_plan (v : Restart) : (b.setRestart v).plan = b.plan := rfl
@[simp] theorem Blocks.setRestart_cache (v : Restart) : (b.setRestart v).cache = b.cache := rfl
@[simp] theorem Blocks.setRestart_cues (v : Restart) : (b.setRestart v).cues = b.cues := rfl
@[simp] theorem Blocks.setRestart_stations (v : Restart) : (b.setRestart v).stations = b.stations := rfl
@[simp] theorem Blocks.setRestart_oven (v : Restart) : (b.setRestart v).oven = b.oven := rfl
@[simp] theorem Blocks.setRestart_field (v : Restart) : (b.setRestart v).field = b.field := rfl
@[simp] theorem Blocks.setRestart_report (v : Restart) : (b.setRestart v).report = b.report := rfl
@[simp] theorem Blocks.setRestart_path (v : Restart) : (b.setRestart v).path = b.path := rfl
@[simp] theorem Blocks.setRestart_restart (v : Restart) : (b.setRestart v).restart = v := rfl
@[simp] theorem Blocks.modTrack_causes (h : Track → Track) : (b.modTrack h).causes = b.causes := rfl
@[simp] theorem Blocks.modTrack_track (h : Track → Track) : (b.modTrack h).track = h b.track := rfl
@[simp] theorem Blocks.modTrack_plan (h : Track → Track) : (b.modTrack h).plan = b.plan := rfl
@[simp] theorem Blocks.modTrack_cache (h : Track → Track) : (b.modTrack h).cache = b.cache := rfl
@[simp] theorem Blocks.modTrack_cues (h : Track → Track) : (b.modTrack h).cues = b.cues := rfl
@[simp] theorem Blocks.modTrack_stations (h : Track → Track) : (b.modTrack h).stations = b.stations := rfl
@[simp] theorem Blocks.modTrack_oven (h : Track → Track) : (b.modTrack h).oven = b.oven := rfl
@[simp] theorem Blocks.modTrack_field (h : Track → Track) : (b.modTrack h).field = b.field := rfl
@[simp] theorem Blocks.modTrack_report (h : Track → Track) : (b.modTrack h).report = b.report := rfl
@[simp] theorem Blocks.modTrack_path (h : Track → Track) : (b.modTrack h).path = b.path := rfl
@[simp] theorem Blocks.modTrack_restart (h : Track → Track) : (b.modTrack h).restart = b.restart := rfl
@[simp] theorem Blocks.modPlan_causes (h : Plan → Plan) : (b.modPlan h).causes = b.causes := rfl
@[simp] theorem Blocks.modPlan_track (h : Plan → Plan) : (b.modPlan h).track = b.track := rfl
@[simp] theorem Blocks.modPlan_plan (h : Plan → Plan) : (b.modPlan h).plan = h b.plan := rfl
@[simp] theorem Blocks.modPlan_cache (h : Plan → Plan) : (b.modPlan h).cache = b.cache := rfl
@[simp] theorem Blocks.modPlan_cues (h : Plan → Plan) : (b.modPlan h).cues = b.cues := rfl
@[simp] theorem Blocks.modPlan_stations (h : Plan → Plan) : (b.modPlan h).stations = b.stations := rfl
@[simp] theorem Blocks.modPlan_oven (h : Plan → Plan) : (b.modPlan h).oven = b.oven := rfl
@[simp] theorem Blocks.modPlan_field (h : Plan → Plan) : (b.modPlan h).field = b.field := rfl
@[simp] theorem Blocks.modPlan_report (h : Plan → Plan) : (b.modPlan h).report = b.report := rfl
@[simp] theorem Blocks.modPlan_path (h : Plan → Plan) : (b.modPlan h).path = b.path := rfl
@[simp] theorem Blocks.modPlan_restart (h : Plan → Plan) : (b.modPlan h).restart = b.restart := rfl
@[simp] theorem Blocks.modCache_causes (h : Cache → Cache) : (b.modCache h).causes = b.causes := rfl
@[simp] theorem Blocks.modCache_track (h : Cache → Cache) : (b.modCache h).track = b.track := rfl
@[simp] theorem Blocks.modCache_plan (h : Cache → Cache) : (b.modCache h).plan = b.plan := rfl
@[simp] theorem Blocks.modCache_cache (h : Cache → Cache) : (b.modCache h).cache = h b.cache := rfl
@[simp] theorem Blocks.modCache_cues (h : Cache → Cache) : (b.modCache h).cues = b.cues := rfl
@[simp] theorem Blocks.modCache_stations (h : Cache → Cache) : (b.modCache h).stations = b.stations := rfl
@[simp] theorem Blocks.modCache_oven (h : Cache → Cache) : (b.modCache h).oven = b.oven := rfl
@[simp] theorem Blocks.modCache_field (h : Cache → Cache) : (b.modCache h).field = b.field := rfl
@[simp] theorem Blocks.modCache_report (h : Cache → Cache) : (b.modCache h).report = b.report := rfl
@[simp] theorem Blocks.modCache_path (h : Cache → Cache) : (b.modCache h).path = b.path := rfl
@[simp] theorem Blocks.modCache_restart (h : Cache → Cache) : (b.modCache h).restart = b.restart := rfl
@[simp] theorem Blocks.modCues_causes (h : Cues → Cues) : (b.modCues h).causes = b.causes := rfl
@[simp] theorem Blocks.modCues_track (h : Cues → Cues) : (b.modCues h).track = b.track := rfl
@[simp] theorem Blocks.modCues_plan (h : Cues → Cues) : (b.modCues h).plan = b.plan := rfl
@[simp] theorem Blocks.modCues_cache (h : Cues → Cues) : (b.modCues h).cache = b.cache := rfl
@[simp] theorem Blocks.modCues_cues (h : Cues → Cues) : (b.modCues h).cues = h b.cues := rfl
@[simp] theorem Blocks.modCues_stations (h : Cues → Cues) : (b.modCues h).stations = b.stations := rfl
@[simp] theorem Blocks.modCues_oven (h : Cues → Cues) : (b.modCues h).oven = b.oven := rfl
@[simp] theorem Blocks.modCues_field (h : Cues → Cues) : (b.modCues h).field = b.field := rfl
@[simp] theorem Blocks.modCues_report (h : Cues → Cues) : (b.modCues h).report = b.report := rfl
@[simp] theorem Blocks.modCues_path (h : Cues → Cues) : (b.modCues h).path = b.path := rfl
@[simp] theorem Blocks.modCues_restart (h : Cues → Cues) : (b.modCues h).restart = b.restart := rfl
@[simp] theorem Blocks.modStations_causes (h : Stations → Stations) : (b.modStations h).causes = b.causes := rfl
@[simp] theorem Blocks.modStations_track (h : Stations → Stations) : (b.modStations h).track = b.track := rfl
@[simp] theorem Blocks.modStations_plan (h : Stations → Stations) : (b.modStations h).plan = b.plan := rfl
@[simp] theorem Blocks.modStations_cache (h : Stations → Stations) : (b.modStations h).cache = b.cache := rfl
@[simp] theorem Blocks.modStations_cues (h : Stations → Stations) : (b.modStations h).cues = b.cues := rfl
@[simp] theorem Blocks.modStations_stations (h : Stations → Stations) : (b.modStations h).stations = h b.stations := rfl
@[simp] theorem Blocks.modStations_oven (h : Stations → Stations) : (b.modStations h).oven = b.oven := rfl
@[simp] theorem Blocks.modStations_field (h : Stations → Stations) : (b.modStations h).field = b.field := rfl
@[simp] theorem Blocks.modStations_report (h : Stations → Stations) : (b.modStations h).report = b.report := rfl
@[simp] theorem Blocks.modStations_path (h : Stations → Stations) : (b.modStations h).path = b.path := rfl
@[simp] theorem Blocks.modStations_restart (h : Stations → Stations) : (b.modStations h).restart = b.restart := rfl
@[simp] theorem Blocks.modOven_causes (h : Oven → Oven) : (b.modOven h).causes = b.causes := rfl
@[simp] theorem Blocks.modOven_track (h : Oven → Oven) : (b.modOven h).track = b.track := rfl
@[simp] theorem Blocks.modOven_plan (h : Oven → Oven) : (b.modOven h).plan = b.plan := rfl
@[simp] theorem Blocks.modOven_cache (h : Oven → Oven) : (b.modOven h).cache = b.cache := rfl
@[simp] theorem Blocks.modOven_cues (h : Oven → Oven) : (b.modOven h).cues = b.cues := rfl
@[simp] theorem Blocks.modOven_stations (h : Oven → Oven) : (b.modOven h).stations = b.stations := rfl
@[simp] theorem Blocks.modOven_oven (h : Oven → Oven) : (b.modOven h).oven = h b.oven := rfl
@[simp] theorem Blocks.modOven_field (h : Oven → Oven) : (b.modOven h).field = b.field := rfl
@[simp] theorem Blocks.modOven_report (h : Oven → Oven) : (b.modOven h).report = b.report := rfl
@[simp] theorem Blocks.modOven_path (h : Oven → Oven) : (b.modOven h).path = b.path := rfl
@[simp] theorem Blocks.modOven_restart (h : Oven → Oven) : (b.modOven h).restart = b.restart := rfl
@[simp] theorem Blocks.modField_causes (h : FieldLine → FieldLine) : (b.modField h).causes = b.causes := rfl
@[simp] theorem Blocks.modField_track (h : FieldLine → FieldLine) : (b.modField h).track = b.track := rfl
@[simp] theorem Blocks.modField_plan (h : FieldLine → FieldLine) : (b.modField h).plan = b.plan := rfl
@[simp] theorem Blocks.modField_cache (h : FieldLine → FieldLine) : (b.modField h).cache = b.cache := rfl
@[simp] theorem Blocks.modField_cues (h : FieldLine → FieldLine) : (b.modField h).cues = b.cues := rfl
@[simp] theorem Blocks.modField_stations (h : FieldLine → FieldLine) : (b.modField h).stations = b.stations := rfl
@[simp] theorem Blocks.modField_oven (h : FieldLine → FieldLine) : (b.modField h).oven = b.oven := rfl
@[simp] theorem Blocks.modField_field (h : FieldLine → FieldLine) : (b.modField h).field = h b.field := rfl
@[simp] theorem Blocks.modField_report (h : FieldLine → FieldLine) : (b.modField h).report = b.report := rfl
@[simp] theorem Blocks.modField_path (h : FieldLine → FieldLine) : (b.modField h).path = b.path := rfl
@[simp] theorem Blocks.modField_restart (h : FieldLine → FieldLine) : (b.modField h).restart = b.restart := rfl
@[simp] theorem Blocks.modReport_causes (h : Report → Report) : (b.modReport h).causes = b.causes := rfl
@[simp] theorem Blocks.modReport_track (h : Report → Report) : (b.modReport h).track = b.track := rfl
@[simp] theorem Blocks.modReport_plan (h : Report → Report) : (b.modReport h).plan = b.plan := rfl
@[simp] theorem Blocks.modReport_cache (h : Report → Report) : (b.modReport h).cache = b.cache := rfl
@[simp] theorem Blocks.modReport_cues (h : Report → Report) : (b.modReport h).cues = b.cues := rfl
@[simp] theorem Blocks.modReport_stations (h : Report → Report) : (b.modReport h).stations = b.stations := rfl
@[simp] theorem Blocks.modReport_oven (h : Report → Report) : (b.modReport h).oven = b.oven := rfl
@[simp] theorem Blocks.modReport_field (h : Report → Report) : (b.modReport h).field = b.field := rfl
@[simp] theorem Blocks.modReport_report (h : Report → Report) : (b.modReport h).report = h b.report := rfl
@[simp] theorem Blocks.modReport_path (h : Report → Report) : (b.modReport h).path = b.path := rfl
@[simp] theorem Blocks.modReport_restart (h : Report → Report) : (b.modReport h).restart = b.restart := rfl
@[simp] theorem Blocks.modPath_causes (h : Path → Path) : (b.modPath h).causes = b.causes := rfl
@[simp] theorem Blocks.modPath_track (h : Path → Path) : (b.modPath h).track = b.track := rfl
@[simp] theorem Blocks.modPath_plan (h : Path → Path) : (b.modPath h).plan = b.plan := rfl
@[simp] theorem Blocks.modPath_cache (h : Path → Path) : (b.modPath h).cache = b.cache := rfl
@[simp] theorem Blocks.modPath_cues (h : Path → Path) : (b.modPath h).cues = b.cues := rfl
@[simp] theorem Blocks.modPath_stations (h : Path → Path) : (b.modPath h).stations = b.stations := rfl
@[simp] theorem Blocks.modPath_oven (h : Path → Path) : (b.modPath h).oven = b.oven := rfl
@[simp] theorem Blocks.modPath_field (h : Path → Path) : (b.modPath h).field = b.field := rfl
@[simp] theorem Blocks.modPath_report (h : Path → Path) : (b.modPath h).report = b.report := rfl
@[simp] theorem Blocks.modPath_path (h : Path → Path) : (b.modPath h).path = h b.path := rfl
@[simp] theorem Blocks.modPath_restart (h : Path → Path) : (b.modPath h).restart = b.restart := rfl
@[simp] theorem Blocks.modRestart_causes (h : Restart → Restart) : (b.modRestart h).causes = b.causes := rfl
@[simp] theorem Blocks.modRestart_track (h : Restart → Restart) : (b.modRestart h).track = b.track := rfl
@[simp] theorem Blocks.modRestart_plan (h : Restart → Restart) : (b.modRestart h).plan = b.plan := rfl
@[simp] theorem Blocks.modRestart_cache (h : Restart → Restart) : (b.modRestart h).cache = b.cache := rfl
@[simp] theorem Blocks.modRestart_cues (h : Restart → Restart) : (b.modRestart h).cues = b.cues := rfl
@[simp] theorem Blocks.modRestart_stations (h : Restart → Restart) : (b.modRestart h).stations = b.stations := rfl
@[simp] theorem Blocks.modRestart_oven (h : Restart → Restart) : (b.modRestart h).oven = b.oven := rfl
@[simp] theorem Blocks.modRestart_field (h : Restart → Restart) : (b.modRestart h).field = b.field := rfl
@[simp] theorem Blocks.modRestart_report (h : Restart → Restart) : (b.modRestart h).report = b.report := rfl
@[simp] theorem Blocks.modRestart_path (h : Restart → Restart) : (b.modRestart h).path = b.path := rfl
@[simp] theorem Blocks.modRestart_restart (h : Restart → Restart) : (b.modRestart h).restart = h b.restart := rfl
@[simp] theorem Blocks.setCauses_live (v : CauseSet) : (b.setCauses v).live = b.live := rfl
@[simp] theorem Blocks.setTrack_live (v : Track) : (b.setTrack v).live = b.live := rfl
@[simp] theorem Blocks.modTrack_live (h : Track → Track) : (b.modTrack h).live = b.live := rfl
@[simp] theorem Blocks.setPlan_live (v : Plan) : (b.setPlan v).live = b.live := rfl
@[simp] theorem Blocks.modPlan_live (h : Plan → Plan) : (b.modPlan h).live = b.live := rfl
@[simp] theorem Blocks.setCache_live (v : Cache) : (b.setCache v).live = b.live := rfl
@[simp] theorem Blocks.modCache_live (h : Cache → Cache) : (b.modCache h).live = b.live := rfl
@[simp] theorem Blocks.setCues_live (v : Cues) : (b.setCues v).live = b.live := rfl
@[simp] theorem Blocks.modCues_live (h : Cues → Cues) : (b.modCues h).live = b.live := rfl
@[simp] theorem Blocks.setStations_live (v : Stations) : (b.setStations v).live = b.live := rfl
@[simp] theorem Blocks.modStations_live (h : Stations → Stations) : (b.modStations h).live = b.live := rfl
@[simp] theorem Blocks.setOven_live (v : Oven) : (b.setOven v).live = b.live := rfl
@[simp] theorem Blocks.modOven_live (h : Oven → Oven) : (b.modOven h).live = b.live := rfl
@[simp] theorem Blocks.setField_live (v : FieldLine) : (b.setField v).live = b.live := rfl
@[simp] theorem Blocks.modField_live (h : FieldLine → FieldLine) : (b.modField h).live = b.live := rfl
@[simp] theorem Blocks.setReport_live (v : Report) : (b.setReport v).live = b.live := rfl
@[simp] theorem Blocks.modReport_live (h : Report → Report) : (b.modReport h).live = b.live := rfl
@[simp] theorem Blocks.setPath_live (v : Path) : (b.setPath v).live = b.live := rfl
@[simp] theorem Blocks.modPath_live (h : Path → Path) : (b.modPath h).live = b.live := rfl
end Blocks

end Sys2Proof.Machine
end

