-- ==== Sys2Proof/Laws/Flags.lean ====
section
/-! SUPPORT. What a raise claim can do, said once: it changes the entry of its kind, may owe a rewrite, and may flag
segments as uncertain. -/

namespace Sys2Proof.Machine

theorem number_injective {j k : CauseKind} (h : j.number = k.number) : j = k := by
  cases j <;> cases k <;> first | rfl | exact absurd h (by decide)

theorem entry_set_self (cs : CauseSet) (k : CauseKind) (e : Option Latched) :
    CauseSet.entry (cs.set k.number e) k = e := by
  simp [CauseSet.entry]

theorem entry_set_other (cs : CauseSet) (j k : CauseKind) (e : Option Latched) (h : j ≠ k) :
    CauseSet.entry (cs.set k.number e) j = CauseSet.entry cs j := by
  have hn : k.number.val ≠ j.number.val := fun hc => h (number_injective (Fin.ext hc.symm))
  simp [CauseSet.entry, hn]

theorem mem_all (k : CauseKind) : k ∈ CauseKind.all := by cases k <;> decide

/-- The blocks after a raise claim: the cause set, the track's flags and the owed rewrite; every other block as it
was. -/
theorem raiseAt_eq (k : CauseKind) (source : Nat) (level : Level) (b : Blocks) :
    raiseAt k source level b =
      ((b.setCauses (raiseAt k source level b).causes).setTrack (raiseAt k source level b).track).setReport
        { b.report with rewriteOwed := (raiseAt k source level b).report.rewriteOwed } := by
  unfold raiseAt
  split
  · split
    · unfold latch
      dsimp only
      split <;> rfl
    · unfold raiseLatched
      split <;> rfl
  · rfl

/-- The track after a raise claim: flags alone. -/
theorem raiseAt_track_eq (k : CauseKind) (source : Nat) (level : Level) (b : Blocks) :
    (raiseAt k source level b).track = b.track ∨ (raiseAt k source level b).track = flagUncertain b.track := by
  unfold raiseAt
  split
  · split
    · unfold latch
      dsimp only
      split
      · exact .inr rfl
      · exact .inl rfl
    · unfold raiseLatched
      split <;> exact .inl rfl
  · exact .inl rfl

section Fields
variable (k : CauseKind) (source : Nat) (level : Level) (b : Blocks)

@[simp] theorem raiseAt_plan : (raiseAt k source level b).plan = b.plan := by rw [raiseAt_eq]; rfl
@[simp] theorem raiseAt_cache : (raiseAt k source level b).cache = b.cache := by rw [raiseAt_eq]; rfl
@[simp] theorem raiseAt_cues : (raiseAt k source level b).cues = b.cues := by rw [raiseAt_eq]; rfl
@[simp] theorem raiseAt_stations : (raiseAt k source level b).stations = b.stations := by rw [raiseAt_eq]; rfl
@[simp] theorem raiseAt_oven : (raiseAt k source level b).oven = b.oven := by rw [raiseAt_eq]; rfl
@[simp] theorem raiseAt_field : (raiseAt k source level b).field = b.field := by rw [raiseAt_eq]; rfl
@[simp] theorem raiseAt_path : (raiseAt k source level b).path = b.path := by rw [raiseAt_eq]; rfl
@[simp] theorem raiseAt_restart : (raiseAt k source level b).restart = b.restart := by rw [raiseAt_eq]; rfl
@[simp] theorem raiseAt_live : (raiseAt k source level b).live = b.live := by simp [Blocks.live]

theorem raiseAt_report : (raiseAt k source level b).report =
    { b.report with rewriteOwed := (raiseAt k source level b).report.rewriteOwed } := by
  conv_lhs => rw [raiseAt_eq]
  rfl

theorem raiseAt_track_other (h : k ≠ .trackUncertain) : (raiseAt k source level b).track = b.track := by
  unfold raiseAt
  split
  · split
    · simp [latch, h, causeChange]
    · unfold raiseLatched
      split <;> rfl
  · rfl

/-- The entry a raise claim leaves, and the entries it leaves alone (R13). -/
theorem raiseAt_raised (h : b.live = true) : Raised k source level b.causes (raiseAt k source level b).causes := by
  unfold Raised raiseAt
  rw [if_pos h]
  constructor
  · cases he : b.causes.entry k with
    | none =>
      simp only [latch]
      split <;> simp [causeChange, entry_set_self]
    | some e =>
      simp only [raiseLatched]
      split
      · rename_i hc
        simp [causeChange, entry_set_self, hc.1, hc.2.1]
      · rename_i hc
        simp only [Blocks.setCauses_causes, entry_set_self]
        split
        · rename_i hm
          have : e.level = .trip := by
            by_contra hn
            exact hc ⟨hm.1, hm.2, hn⟩
          rw [this]
        · rfl
  · intro j hj
    cases he : b.causes.entry k with
    | none =>
      simp only [latch]
      split <;> simp [causeChange, entry_set_other _ _ _ _ hj]
    | some e =>
      simp only [raiseLatched]
      split <;> simp [causeChange, entry_set_other _ _ _ _ hj]

theorem raiseAt_idle (h : b.live = false) : raiseAt k source level b = b := by
  unfold raiseAt
  rw [if_neg (by simp [h])]

/-- A raise claim does not read or change the path unit. -/
theorem raiseAt_setPath (p : Path) : raiseAt k source level (b.setPath p) = (raiseAt k source level b).setPath p := by
  unfold raiseAt
  by_cases hl : b.live = true
  · have hl' : (b.setPath p).live = true := by simpa using hl
    rw [if_pos hl, if_pos hl']
    cases he : b.causes.entry k with
    | none =>
      have he' : (b.setPath p).causes.entry k = none := he
      simp only [he', latch]
      split <;> rfl
    | some e =>
      have he' : (b.setPath p).causes.entry k = some e := he
      simp only [he', raiseLatched]
      split <;> rfl
  · have hl' : ¬ (b.setPath p).live = true := by simpa using hl
    rw [if_neg hl, if_neg hl']

end Fields

end Sys2Proof.Machine
end

