-- ==== Sys2Proof/Laws/Memory.lean ====
section
/-! SUPPORT. Job memory: what a byte reads after a write, and that every operation keeps the canonical form. -/

namespace Sys2Proof.Machine

/-! ### One byte -/

theorem wfAbove_mono {lo lo' : Nat} (h : lo' ≤ lo) : ∀ m : Memory, Memory.wfAbove lo m = true → Memory.wfAbove lo' m = true
  | [], _ => rfl
  | (k, v) :: r, hm => by
    simp only [Memory.wfAbove, Bool.and_eq_true, decide_eq_true_eq] at hm ⊢
    exact ⟨⟨by omega, hm.1.2⟩, hm.2⟩

theorem readByte_below {lo : Nat} : ∀ (m : Memory) (a : Nat), Memory.wfAbove lo m = true → a < lo →
    m.readByte a = Memory.unlisted
  | [], _, _, _ => rfl
  | (k, v) :: r, a, hm, ha => by
    simp only [Memory.wfAbove, Bool.and_eq_true, decide_eq_true_eq] at hm
    have hk : k ≠ a := by omega
    simp only [Memory.readByte, hk, if_false]
    exact readByte_below r a hm.2 (by omega)

theorem readByte_writeByte_other (a a' : Nat) (v : Byte) (h : a' ≠ a) :
    ∀ m : Memory, (m.writeByte a v).readByte a' = m.readByte a'
  | [] => by
    have : a ≠ a' := Ne.symm h
    unfold Memory.writeByte
    split <;> simp [Memory.readByte, this]
  | (k, x) :: r => by
    have hn : a ≠ a' := Ne.symm h
    have ih := readByte_writeByte_other a a' v h r
    unfold Memory.writeByte
    split
    · split <;> simp [Memory.readByte, hn]
    · split
      · rename_i hk
        subst hk
        split <;> simp [Memory.readByte, hn]
      · simp only [Memory.readByte, ih]

theorem readByte_writeByte_same (a : Nat) (v : Byte) :
    ∀ (m : Memory) (lo : Nat), Memory.wfAbove lo m = true → (m.writeByte a v).readByte a = v
  | [], _, _ => by
    unfold Memory.writeByte
    split <;> simp_all [Memory.readByte]
  | (k, x) :: r, lo, hm => by
    simp only [Memory.wfAbove, Bool.and_eq_true, decide_eq_true_eq] at hm
    unfold Memory.writeByte
    split
    · rename_i hk
      split
      · rename_i hv
        have hne : k ≠ a := by omega
        simp only [Memory.readByte, hne, if_false]
        rw [readByte_below r a hm.2 (by omega), hv]
      · simp [Memory.readByte]
    · split
      · rename_i hk
        subst hk
        split
        · rename_i hv
          rw [readByte_below r a hm.2 (by omega), hv]
        · simp [Memory.readByte]
      · rename_i hk hne
        have hne' : k ≠ a := Ne.symm hne
        simp only [Memory.readByte, hne', if_false]
        exact readByte_writeByte_same a v r (k + 1) hm.2

theorem wfAbove_writeByte (a : Nat) (v : Byte) :
    ∀ (m : Memory) (lo : Nat), lo ≤ a → Memory.wfAbove lo m = true → Memory.wfAbove lo (m.writeByte a v) = true
  | [], lo, ha, _ => by
    unfold Memory.writeByte
    split <;> simp_all [Memory.wfAbove]
  | (k, x) :: r, lo, ha, hm => by
    have hm' := hm
    simp only [Memory.wfAbove, Bool.and_eq_true, decide_eq_true_eq] at hm
    unfold Memory.writeByte
    split
    · rename_i hk
      split
      · exact hm'
      · rename_i hv
        simp only [Memory.wfAbove, Bool.and_eq_true, decide_eq_true_eq]
        exact ⟨⟨ha, hv⟩, ⟨by omega, hm.1.2⟩, hm.2⟩
    · split
      · rename_i hk
        subst hk
        split
        · exact wfAbove_mono (by omega) r hm.2
        · rename_i hv
          simp only [Memory.wfAbove, Bool.and_eq_true, decide_eq_true_eq]
          exact ⟨⟨ha, hv⟩, hm.2⟩
      · simp only [Memory.wfAbove, Bool.and_eq_true, decide_eq_true_eq]
        exact ⟨hm.1, wfAbove_writeByte a v r (k + 1) (by omega) hm.2⟩

/-- A byte written keeps the canonical form. -/
theorem wf_writeByte (m : Memory) (a : Nat) (v : Byte) (h : m.wf = true) : (m.writeByte a v).wf = true :=
  wfAbove_writeByte a v m 0 (Nat.zero_le _) h

/-- A byte written reads back. -/
theorem readByte_writeByte (m : Memory) (a : Nat) (v : Byte) (h : m.wf = true) : (m.writeByte a v).readByte a = v :=
  readByte_writeByte_same a v m 0 h

/-! ### Words and accesses -/

theorem wf_writeLane (a : Nat) (en : BitVec 4) (w : Word) (m : Memory) (i : Nat) (h : m.wf = true) :
    (Memory.writeLane a en w m i).wf = true := by
  unfold Memory.writeLane
  split
  · exact wf_writeByte _ _ _ h
  · exact h

/-- A word written keeps the canonical form. -/
theorem wf_writeWord (m : Memory) (a : Nat) (en : BitVec 4) (w : Word) (h : m.wf = true) :
    (m.writeWord a en w).wf = true := by
  unfold Memory.writeWord
  simp only [List.foldl]
  exact wf_writeLane _ _ _ _ _ (wf_writeLane _ _ _ _ _ (wf_writeLane _ _ _ _ _ (wf_writeLane _ _ _ _ _ h)))

/-- Full words written keep the canonical form. -/
theorem wf_writeWords (ws : List Word) : ∀ (m : Memory) (a : Nat), m.wf = true → (m.writeWords a ws).wf = true := by
  induction ws with
  | nil => exact fun _ _ h => h
  | cons w ws ih => exact fun m a h => ih _ _ (wf_writeWord m a _ w h)

/-- An internal access carried keeps the canonical form. -/
theorem wf_carry (m : Memory) (a : Access) (h : m.wf = true) : (m.carry a).wf = true := by
  unfold Memory.carry
  split
  · exact h
  · exact wf_writeWords _ _ _ h

theorem readByte_writeLane_other (a : Nat) (en : BitVec 4) (w : Word) (m : Memory) (i k : Nat) (h : k ≠ laneKey a i) :
    (Memory.writeLane a en w m i).readByte k = m.readByte k := by
  unfold Memory.writeLane
  split
  · exact readByte_writeByte_other _ _ _ h _
  · rfl

/-- A word write changes only the lanes of its word that its byte enables set. -/
theorem readByte_writeWord_other (m : Memory) (a : Nat) (en : BitVec 4) (w : Word) (k : Nat)
    (h : ∀ i < 4, en.getLsbD i = true → k ≠ laneKey a i) : (m.writeWord a en w).readByte k = m.readByte k := by
  have hl (m : Memory) (i : Nat) (hi : i < 4) : (Memory.writeLane a en w m i).readByte k = m.readByte k := by
    by_cases he : en.getLsbD i = true
    · exact readByte_writeLane_other _ _ _ _ _ _ (h i hi he)
    · simp [Memory.writeLane, he]
  unfold Memory.writeWord
  simp only [List.foldl]
  rw [hl _ 3 (by omega), hl _ 2 (by omega), hl _ 1 (by omega), hl _ 0 (by omega)]

/-- An access's words change only the bytes of its words. -/
theorem readByte_writeWords_other (ws : List Word) : ∀ (m : Memory) (a k : Nat),
    (∀ j < ws.length, ∀ i < 4, k ≠ laneKey (a + j) i) → (m.writeWords a ws).readByte k = m.readByte k := by
  induction ws with
  | nil => exact fun _ _ _ _ => rfl
  | cons w ws ih =>
    intro m a k h
    rw [Memory.writeWords, ih _ _ _ (fun j hj i hi => by
      have := h (j + 1) (by simp; omega) i hi
      rwa [show a + (j + 1) = a + 1 + j by omega] at this)]
    exact readByte_writeWord_other _ _ _ _ _ fun i hi _ => h 0 (by simp) i hi

end Sys2Proof.Machine
end

