-- ==== Sys2Proof/Laws/Settle.lean ====
section
/-! SUPPORT. What the end of a step can do, said once. -/

namespace Sys2Proof.Machine

/-! ### A request and a grant change the path unit alone -/

theorem requestIfFree_path (r : Requester) (a : Option Access) (b : Blocks) :
    requestIfFree r a b = b.setPath { b.path with slots := (requestIfFree r a b).path.slots } := by
  unfold requestIfFree
  cases a with
  | none => rfl
  | some a => dsimp only; split <;> rfl

theorem grantHost_path (x : Ctx) (b : Blocks) (n : Nat) : grantHost x b n = b.setPath (grantHost x b n).path := by
  unfold grantHost; split <;> rfl

theorem grantInternal_path (b : Blocks) (r : Requester) : grantInternal b r = b.setPath (grantInternal b r).path := by
  unfold grantInternal; split <;> rfl

theorem grantAmong_path (x : Ctx) (b : Blocks) (q : Requests) :
    grantAmong x b q = b.setPath (grantAmong x b q).path := by
  unfold grantAmong
  split
  · exact grantHost_path ..
  · split
    · exact grantHost_path ..
    · exact grantInternal_path ..
  · exact grantInternal_path ..
  · rfl

theorem arbitrate_path (x : Ctx) (o : Weigh) (b : Blocks) :
    arbitrate x o b = b.setPath (arbitrate x o b).path := by
  unfold arbitrate
  split
  · exact grantAmong_path ..
  · rfl

theorem pathFollows_refl (p : Path) : PathFollows p p := ⟨rfl, rfl, id, fun _ => ⟨rfl, rfl⟩⟩

theorem grantHost_pathFollows (x : Ctx) (b : Blocks) (n : Nat) (h : b.path.port = .free) :
    PathFollows b.path (grantHost x b n).path := by
  unfold grantHost PathFollows
  split <;> simp_all

theorem grantInternal_pathFollows (b : Blocks) (r : Requester) (h : b.path.port = .free) :
    PathFollows b.path (grantInternal b r).path := by
  unfold grantInternal PathFollows
  split <;> simp_all

theorem grantAmong_pathFollows (x : Ctx) (b : Blocks) (q : Requests) (h : b.path.port = .free) :
    PathFollows b.path (grantAmong x b q).path := by
  unfold grantAmong
  split
  · exact grantHost_pathFollows _ _ _ h
  · split
    · exact grantHost_pathFollows _ _ _ h
    · exact grantInternal_pathFollows _ _ h
  · exact grantInternal_pathFollows _ _ h
  · exact pathFollows_refl _

theorem arbitrate_pathFollows (x : Ctx) (o : Weigh) (b : Blocks) :
    PathFollows b.path (arbitrate x o b).path := by
  unfold arbitrate
  split
  · rename_i h _
    exact grantAmong_pathFollows _ _ _ h
  · exact pathFollows_refl _

section Fields
variable (x : Ctx) (only : Weigh) (r : Requester) (a : Option Access) (b : Blocks)

@[simp] theorem requestIfFree_causes : (requestIfFree r a b).causes = b.causes := by
  have h := congrArg Blocks.causes (requestIfFree_path r a b); exact h
@[simp] theorem arbitrate_causes : (arbitrate x only b).causes = b.causes := by
  have h := congrArg Blocks.causes (arbitrate_path x only b); exact h
@[simp] theorem requestIfFree_track : (requestIfFree r a b).track = b.track := by
  have h := congrArg Blocks.track (requestIfFree_path r a b); exact h
@[simp] theorem arbitrate_track : (arbitrate x only b).track = b.track := by
  have h := congrArg Blocks.track (arbitrate_path x only b); exact h
@[simp] theorem requestIfFree_plan : (requestIfFree r a b).plan = b.plan := by
  have h := congrArg Blocks.plan (requestIfFree_path r a b); exact h
@[simp] theorem arbitrate_plan : (arbitrate x only b).plan = b.plan := by
  have h := congrArg Blocks.plan (arbitrate_path x only b); exact h
@[simp] theorem requestIfFree_cache : (requestIfFree r a b).cache = b.cache := by
  have h := congrArg Blocks.cache (requestIfFree_path r a b); exact h
@[simp] theorem arbitrate_cache : (arbitrate x only b).cache = b.cache := by
  have h := congrArg Blocks.cache (arbitrate_path x only b); exact h
@[simp] theorem requestIfFree_cues : (requestIfFree r a b).cues = b.cues := by
  have h := congrArg Blocks.cues (requestIfFree_path r a b); exact h
@[simp] theorem arbitrate_cues : (arbitrate x only b).cues = b.cues := by
  have h := congrArg Blocks.cues (arbitrate_path x only b); exact h
@[simp] theorem requestIfFree_stations : (requestIfFree r a b).stations = b.stations := by
  have h := congrArg Blocks.stations (requestIfFree_path r a b); exact h
@[simp] theorem arbitrate_stations : (arbitrate x only b).stations = b.stations := by
  have h := congrArg Blocks.stations (arbitrate_path x only b); exact h
@[simp] theorem requestIfFree_oven : (requestIfFree r a b).oven = b.oven := by
  have h := congrArg Blocks.oven (requestIfFree_path r a b); exact h
@[simp] theorem arbitrate_oven : (arbitrate x only b).oven = b.oven := by
  have h := congrArg Blocks.oven (arbitrate_path x only b); exact h
@[simp] theorem requestIfFree_field : (requestIfFree r a b).field = b.field := by
  have h := congrArg Blocks.field (requestIfFree_path r a b); exact h
@[simp] theorem arbitrate_field : (arbitrate x only b).field = b.field := by
  have h := congrArg Blocks.field (arbitrate_path x only b); exact h
@[simp] theorem requestIfFree_report : (requestIfFree r a b).report = b.report := by
  have h := congrArg Blocks.report (requestIfFree_path r a b); exact h
@[simp] theorem arbitrate_report : (arbitrate x only b).report = b.report := by
  have h := congrArg Blocks.report (arbitrate_path x only b); exact h
@[simp] theorem requestIfFree_restart : (requestIfFree r a b).restart = b.restart := by
  have h := congrArg Blocks.restart (requestIfFree_path r a b); exact h
@[simp] theorem arbitrate_restart : (arbitrate x only b).restart = b.restart := by
  have h := congrArg Blocks.restart (arbitrate_path x only b); exact h

theorem captureAtGrant_eq :
    captureAtGrant x b = (b.setRestart { b.restart with writing := (captureAtGrant x b).restart.writing }).setPath
      { b.path with port := (captureAtGrant x b).path.port } := by
  unfold captureAtGrant
  split
  · split <;> rfl
  · rfl

@[simp] theorem captureAtGrant_causes : (captureAtGrant x b).causes = b.causes := by
  have h := congrArg Blocks.causes (captureAtGrant_eq x b); exact h
@[simp] theorem captureAtGrant_track : (captureAtGrant x b).track = b.track := by
  have h := congrArg Blocks.track (captureAtGrant_eq x b); exact h
@[simp] theorem captureAtGrant_plan : (captureAtGrant x b).plan = b.plan := by
  have h := congrArg Blocks.plan (captureAtGrant_eq x b); exact h
@[simp] theorem captureAtGrant_cache : (captureAtGrant x b).cache = b.cache := by
  have h := congrArg Blocks.cache (captureAtGrant_eq x b); exact h
@[simp] theorem captureAtGrant_cues : (captureAtGrant x b).cues = b.cues := by
  have h := congrArg Blocks.cues (captureAtGrant_eq x b); exact h
@[simp] theorem captureAtGrant_stations : (captureAtGrant x b).stations = b.stations := by
  have h := congrArg Blocks.stations (captureAtGrant_eq x b); exact h
@[simp] theorem captureAtGrant_oven : (captureAtGrant x b).oven = b.oven := by
  have h := congrArg Blocks.oven (captureAtGrant_eq x b); exact h
@[simp] theorem captureAtGrant_field : (captureAtGrant x b).field = b.field := by
  have h := congrArg Blocks.field (captureAtGrant_eq x b); exact h
@[simp] theorem captureAtGrant_report : (captureAtGrant x b).report = b.report := by
  have h := congrArg Blocks.report (captureAtGrant_eq x b); exact h

@[simp] theorem startTake_causes : (startTake b).causes = b.causes := by unfold startTake; split <;> rfl
@[simp] theorem startTake_track : (startTake b).track = b.track := by unfold startTake; split <;> rfl
@[simp] theorem startTake_cache : (startTake b).cache = b.cache := by unfold startTake; split <;> rfl
@[simp] theorem startTake_cues : (startTake b).cues = b.cues := by unfold startTake; split <;> rfl
@[simp] theorem startTake_stations : (startTake b).stations = b.stations := by unfold startTake; split <;> rfl
@[simp] theorem startTake_oven : (startTake b).oven = b.oven := by unfold startTake; split <;> rfl
@[simp] theorem startTake_field : (startTake b).field = b.field := by unfold startTake; split <;> rfl
@[simp] theorem startTake_report : (startTake b).report = b.report := by unfold startTake; split <;> rfl
@[simp] theorem startTake_restart : (startTake b).restart = b.restart := by unfold startTake; split <;> rfl
@[simp] theorem startTake_path : (startTake b).path = b.path := by unfold startTake; split <;> rfl
@[simp] theorem startRewrite_causes : (startRewrite x b).causes = b.causes := by unfold startRewrite; split <;> rfl
@[simp] theorem startRewrite_track : (startRewrite x b).track = b.track := by unfold startRewrite; split <;> rfl
@[simp] theorem startRewrite_plan : (startRewrite x b).plan = b.plan := by unfold startRewrite; split <;> rfl
@[simp] theorem startRewrite_cache : (startRewrite x b).cache = b.cache := by unfold startRewrite; split <;> rfl
@[simp] theorem startRewrite_cues : (startRewrite x b).cues = b.cues := by unfold startRewrite; split <;> rfl
@[simp] theorem startRewrite_stations : (startRewrite x b).stations = b.stations := by unfold startRewrite; split <;> rfl
@[simp] theorem startRewrite_oven : (startRewrite x b).oven = b.oven := by unfold startRewrite; split <;> rfl
@[simp] theorem startRewrite_field : (startRewrite x b).field = b.field := by unfold startRewrite; split <;> rfl
@[simp] theorem startRewrite_restart : (startRewrite x b).restart = b.restart := by unfold startRewrite; split <;> rfl
@[simp] theorem startRewrite_path : (startRewrite x b).path = b.path := by unfold startRewrite; split <;> rfl
@[simp] theorem startRecord_causes (c : Anchor) : (startRecord c b).causes = b.causes := by
  unfold startRecord; repeat (first | rfl | split)
@[simp] theorem startRecord_track (c : Anchor) : (startRecord c b).track = b.track := by
  unfold startRecord; repeat (first | rfl | split)
@[simp] theorem startRecord_plan (c : Anchor) : (startRecord c b).plan = b.plan := by
  unfold startRecord; repeat (first | rfl | split)
@[simp] theorem startRecord_cache (c : Anchor) : (startRecord c b).cache = b.cache := by
  unfold startRecord; repeat (first | rfl | split)
@[simp] theorem startRecord_cues (c : Anchor) : (startRecord c b).cues = b.cues := by
  unfold startRecord; repeat (first | rfl | split)
@[simp] theorem startRecord_stations (c : Anchor) : (startRecord c b).stations = b.stations := by
  unfold startRecord; repeat (first | rfl | split)
@[simp] theorem startRecord_oven (c : Anchor) : (startRecord c b).oven = b.oven := by
  unfold startRecord; repeat (first | rfl | split)
@[simp] theorem startRecord_field (c : Anchor) : (startRecord c b).field = b.field := by
  unfold startRecord; repeat (first | rfl | split)
@[simp] theorem startRecord_restart (c : Anchor) : (startRecord c b).restart = b.restart := by
  unfold startRecord; repeat (first | rfl | split)
@[simp] theorem startRecord_path (c : Anchor) : (startRecord c b).path = b.path := by
  unfold startRecord; repeat (first | rfl | split)
@[simp] theorem startTake_live : (startTake b).live = b.live := by simp [Blocks.live]
@[simp] theorem startRecord_live (c : Anchor) : (startRecord c b).live = b.live := by simp [Blocks.live]

@[simp] theorem settle_causes : (settle x only b).causes = b.causes := by
  simp [settle, pumpReport, pumpPlan, pumpCache, pumpRestart]
@[simp] theorem settle_track : (settle x only b).track = b.track := by
  simp [settle, pumpReport, pumpPlan, pumpCache, pumpRestart]
@[simp] theorem settle_cache : (settle x only b).cache = b.cache := by
  simp [settle, pumpReport, pumpPlan, pumpCache, pumpRestart]
@[simp] theorem settle_cues : (settle x only b).cues = b.cues := by
  simp [settle, pumpReport, pumpPlan, pumpCache, pumpRestart]
@[simp] theorem settle_stations : (settle x only b).stations = b.stations := by
  simp [settle, pumpReport, pumpPlan, pumpCache, pumpRestart]
@[simp] theorem settle_oven : (settle x only b).oven = b.oven := by
  simp [settle, pumpReport, pumpPlan, pumpCache, pumpRestart]
@[simp] theorem settle_field : (settle x only b).field = b.field := by
  simp [settle, pumpReport, pumpPlan, pumpCache, pumpRestart]

theorem settle_plan : (settle x only b).plan = (startTake (pumpCache x (pumpRestart x b))).plan := by
  simp [settle, pumpReport, pumpPlan]

theorem settle_report :
    (settle x only b).report =
      (startRewrite x (startRecord x.cfg (pumpPlan x (pumpCache x (pumpRestart x b))))).report := by
  simp [settle, pumpReport]

theorem settle_restart :
    (settle x only b).restart = { b.restart with writing := (settle x only b).restart.writing } := by
  have h := congrArg Blocks.restart (captureAtGrant_eq x
    (arbitrate x only (pumpReport x (pumpPlan x (pumpCache x (pumpRestart x b))))))
  simp only [settle]
  rw [h]
  simp [pumpReport, pumpPlan, pumpCache, pumpRestart]

end Fields

/-! ### The plan reader and the report unit -/

theorem startTake_follows (b : Blocks) : PlanFollows b.plan (startTake b).plan := by
  unfold startTake PlanFollows
  split
  · rename_i h
    exact .inr ⟨h.2.1, h.2.2.1, h.2.2.2, rfl⟩
  · exact .inl rfl

theorem settle_planFollows (x : Ctx) (only : Weigh) (b : Blocks) :
    PlanFollows b.plan (settle x only b).plan := by
  have h := startTake_follows (pumpCache x (pumpRestart x b))
  rw [settle_plan]
  simpa [pumpCache, pumpRestart] using h

theorem startRecord_report (c : Anchor) (b : Blocks) :
    ∃ w n, (startRecord c b).report = { b.report with recordWrite := w, overwritten := n } ∧
      (b.report.recordWrite.isSome → w = b.report.recordWrite ∧ n = b.report.overwritten) := by
  unfold startRecord
  split
  · rename_i hw _ _
    split
    · split
      · exact ⟨_, _, rfl, fun _ => ⟨rfl, rfl⟩⟩
      · exact ⟨_, _, rfl, fun h => by simp [hw] at h⟩
    · exact ⟨_, _, rfl, fun h => by simp [hw] at h⟩
  · exact ⟨_, _, rfl, fun _ => ⟨rfl, rfl⟩⟩

theorem startRewrite_report (x : Ctx) (b : Blocks) :
    (startRewrite x b).report = b.report ∨
      (b.report.rewriteOwed = true ∧ b.report.rewrite = none ∧ ∃ v, (startRewrite x b).report =
        { b.report with rewriteOwed := false, rewriteNumber := b.report.rewriteNumber + 1, rewrite := some v }) := by
  unfold startRewrite
  split
  · rename_i h
    exact .inr ⟨h.2.1, h.2.2.1, _, rfl⟩
  · exact .inl rfl

theorem settle_reportFollows (x : Ctx) (only : Weigh) (b : Blocks) :
    ReportFollows b.report (settle x only b).report := by
  rw [settle_report]
  have hr : (pumpPlan x (pumpCache x (pumpRestart x b))).report = b.report := by
    simp [pumpPlan, pumpCache, pumpRestart]
  generalize pumpPlan x (pumpCache x (pumpRestart x b)) = b' at hr
  obtain ⟨w, n, h, hw⟩ := startRecord_report x.cfg b'
  rw [hr] at h hw
  rcases startRewrite_report x (startRecord x.cfg b') with h' | ⟨ho, hn, v, h'⟩
  · rw [h', h]
    exact ⟨rfl, hw, fun _ => ⟨rfl, rfl, rfl⟩, fun h => ⟨h, rfl, rfl⟩⟩
  · rw [h] at h' ho hn
    rw [h']
    exact ⟨rfl, hw, fun hs => by simp_all, fun hf => by simp_all⟩

/-! ### The path unit -/

theorem settle_writing_kept (x : Ctx) (only : Weigh) (b : Blocks) (h : b.restart.writing.isSome) :
    (settle x only b).restart.writing = b.restart.writing := by
  have h' : (arbitrate x only (pumpReport x (pumpPlan x (pumpCache x (pumpRestart x b))))).restart.writing =
      b.restart.writing := by simp [pumpReport, pumpPlan, pumpCache, pumpRestart]
  unfold settle
  generalize arbitrate x only (pumpReport x (pumpPlan x (pumpCache x (pumpRestart x b)))) = b' at h'
  unfold captureAtGrant
  split
  · rename_i hw; rw [hw] at h'; rw [← h'] at h; simp at h
  · exact h'

/-- Equal paths but for the request slots. -/
theorem requestIfFree_slots (r : Requester) (a : Option Access) (b : Blocks) :
    ∃ sl, (requestIfFree r a b).path = { b.path with slots := sl } := by
  have h := congrArg Blocks.path (requestIfFree_path r a b)
  exact ⟨_, h⟩

theorem pumps_path (x : Ctx) (b : Blocks) :
    ∃ sl, (pumpReport x (pumpPlan x (pumpCache x (pumpRestart x b)))).path = { b.path with slots := sl } := by
  unfold pumpReport pumpPlan
  dsimp only
  obtain ⟨s1, h1⟩ := requestIfFree_slots .restart (restartAccess x.cfg b.restart) b
  obtain ⟨s2, h2⟩ := requestIfFree_slots .cache (cacheAccess x.cfg (pumpRestart x b).cache) (pumpRestart x b)
  generalize hb : pumpCache x (pumpRestart x b) = b2
  have e2 : b2.path = { b.path with slots := s2 } := by
    rw [← hb]; unfold pumpCache; rw [h2]; unfold pumpRestart; rw [h1]
  obtain ⟨s3, h3⟩ := requestIfFree_slots .plan (planAccess x.cfg (startTake b2).plan) (startTake b2)
  generalize requestIfFree .plan (planAccess x.cfg (startTake b2).plan) (startTake b2) = b3 at h3
  rw [startTake_path, e2] at h3
  generalize hb4 : startRewrite x (startRecord x.cfg b3) = b4
  have e4 : b4.path = b3.path := by rw [← hb4]; simp
  obtain ⟨s4, h4⟩ := requestIfFree_slots .report (reportAccess x.cfg b4.report b4.path.freeze) b4
  exact ⟨s4, by rw [h4, e4, h3]⟩

theorem captureAtGrant_pathFollows (x : Ctx) (b : Blocks) : PathFollows b.path (captureAtGrant x b).path := by
  unfold captureAtGrant PathFollows
  split
  · split <;> simp_all
  · simp

theorem settle_pathFollows (x : Ctx) (only : Weigh) (b : Blocks) :
    PathFollows b.path (settle x only b).path := by
  obtain ⟨sl, h⟩ := pumps_path x b
  unfold settle
  generalize pumpReport x (pumpPlan x (pumpCache x (pumpRestart x b))) = b' at h ⊢
  have h1 := arbitrate_pathFollows x only b'
  have h2 := captureAtGrant_pathFollows x (arbitrate x only b')
  unfold PathFollows at *
  simp_all

/-! ### The whole end of a step -/

/-- What the end of a step does to a state: nothing but what the blocks begin at once. -/
theorem settled_follows (only : Weigh) (s : State) : FollowsFrom s (s.settled only) := by
  unfold State.settled FollowsFrom FollowsButPath
  simp only [State.setBlk_cfg, State.setBlk_motion, State.setBlk_mem, State.setBlk_pending, State.setBlk_blk]
  exact ⟨⟨trivial, trivial, trivial, trivial, settle_causes .., settle_track .., settle_cache .., settle_cues ..,
    settle_stations .., settle_oven .., settle_field .., settle_planFollows .., settle_reportFollows ..,
    settle_restart .., settle_writing_kept _ _ _⟩, settle_pathFollows ..⟩

/-- The same of an end of a step that uses an entry of `moments`. -/
theorem decided_follows (pre : Requests) (decision : Decision) (s : State) :
    FollowsFrom s (s.decided pre decision) := settled_follows _ s

/-- A step of the part's blocks: the blocks' own change, and what follows. -/
theorem blockStep_follows (f : Ctx → Blocks → Blocks) (s : State) :
    FollowsFrom (s.setBlk (f s.ctx s.blk)) (blockStep f s) := decided_follows ..

@[simp] theorem settled_cfg (only : Weigh) (s : State) : (s.settled only).cfg = s.cfg := by
  simp [State.settled]
@[simp] theorem settled_motion (only : Weigh) (s : State) : (s.settled only).motion = s.motion := by
  simp [State.settled]
@[simp] theorem settled_mem (only : Weigh) (s : State) : (s.settled only).mem = s.mem := by
  simp [State.settled]
@[simp] theorem settled_pending (only : Weigh) (s : State) : (s.settled only).pending = s.pending := by
  simp [State.settled]

@[simp] theorem decided_cfg (pre : Requests) (decision : Decision) (s : State) :
    (s.decided pre decision).cfg = s.cfg := by simp [State.decided]
@[simp] theorem decided_motion (pre : Requests) (decision : Decision) (s : State) :
    (s.decided pre decision).motion = s.motion := by simp [State.decided]
@[simp] theorem decided_mem (pre : Requests) (decision : Decision) (s : State) :
    (s.decided pre decision).mem = s.mem := by simp [State.decided]
@[simp] theorem decided_pending (pre : Requests) (decision : Decision) (s : State) :
    (s.decided pre decision).pending = s.pending := by simp [State.decided]
@[simp] theorem decided_moments (pre : Requests) (decision : Decision) (s : State) :
    (s.decided pre decision).moments = s.moments.tail := rfl

end Sys2Proof.Machine
end

