-- ==== Sys2Proof/Laws/Ports.lean ====
section
/-! SUPPORT. What the completion of a host word and of an internal access can do, said once. -/

namespace Sys2Proof.Machine

/-! ### An end of step under another path -/

theorem followsButPath_refl (s : State) : FollowsButPath s s := by
  unfold FollowsButPath PlanFollows ReportFollows
  simp

/-- What follows from a state follows from any other that differs in the path unit alone. -/
theorem followsButPath_setPath {s t : State} {b : Blocks} {p : Path}
    (h : FollowsButPath (s.setBlk (b.setPath p)) t) : FollowsButPath (s.setBlk b) t := h

theorem settled_mono (only : Weigh) (s : State) (b : Blocks) (p : Path) :
    FollowsButPath (s.setBlk b) ((s.setBlk (b.setPath p)).settled only) :=
  followsButPath_setPath (settled_follows only (s.setBlk (b.setPath p))).1

/-! ### A word's completion -/

theorem countDrop_path (w : CarriedWord) (b : Blocks) :
    countDrop w b = b.setPath { b.path with
      dropped := if w.judged = .pass then b.path.dropped else inc32 b.path.dropped } := by
  unfold countDrop
  split <;> rfl

theorem nextWord_path (x : Ctx) (w : CarriedWord) (b : Blocks) :
    nextWord x w b = b.setPath (nextWord x w b).path := by
  unfold nextWord
  split <;> rfl

/-- The blocks that a word's effect is run on. -/
def wordBlocks (s : State) (w : CarriedWord) : Blocks :=
  s.blk.setPath { s.blk.path with
    readData := s.blk.path.readData ++ readWordOf w s.mem
    dropped := if w.judged = .pass then s.blk.path.dropped else inc32 s.blk.path.dropped }

theorem completeWord_eq {c : WordClass} {decision : Decision} {effect : Ctx → CarriedWord → Blocks → Blocks} {s : State}
    {w : CarriedWord} (hw : s.blk.path.carried = some w) (hc : wordClass s.ctx s.blk w = c) :
    completeWord c decision effect s =
      ((s.setMem (carryWord w s.mem)).setBlk (nextWord s.ctx w (effect s.ctx w (wordBlocks s w)))).decided
        s.blk.path.requests decision := by
  unfold completeWord
  rw [hw]
  simp only [hc, if_true, countDrop_path]
  rfl

theorem completeWord_other {c : WordClass} {decision : Decision} {effect : Ctx → CarriedWord → Blocks → Blocks} {s : State}
    (h : ∀ w, s.blk.path.carried = some w → wordClass s.ctx s.blk w ≠ c) : completeWord c decision effect s = s := by
  unfold completeWord
  split
  · rfl
  · rename_i w hw
    rw [if_neg (h w hw)]

theorem nextWord_host (x : Ctx) (w : CarriedWord) (b : Blocks) : (nextWord x w b).path.host =
    if w.index + 1 < w.access.count then
      .carrying w.access (w.index + 1) (judgeWord x b w.access (w.index + 1)) else .empty := by
  unfold nextWord
  split <;> rfl

theorem nextWord_others (x : Ctx) (w : CarriedWord) (b : Blocks) :
    (nextWord x w b).path.freeze = b.path.freeze ∧ (nextWord x w b).path.dropped = b.path.dropped ∧
      (nextWord x w b).path.readData = b.path.readData := by
  unfold nextWord
  split <;> exact ⟨rfl, rfl, rfl⟩

/-- The completion of a word of class `c` with an effect that leaves the freeze, the drops and the data alone: what the
effect gives, memory with the word, and the access moved on. -/
theorem completeWord_spec {c : WordClass} {decision : Decision} {effect : Ctx → CarriedWord → Blocks → Blocks} {s : State}
    {w : CarriedWord} (hw : s.blk.path.carried = some w) (hc : wordClass s.ctx s.blk w = c) :
    let b := effect s.ctx w (wordBlocks s w)
    let t := completeWord c decision effect s
    FollowsButPath ((s.setMem (carryWord w s.mem)).setBlk b) t ∧
      t.blk.path.freeze = b.path.freeze ∧ t.blk.path.dropped = b.path.dropped ∧
      t.blk.path.readData = b.path.readData ∧
      t.blk.path.host = (if w.index + 1 < w.access.count then
        .carrying w.access (w.index + 1) (judgeWord s.ctx b w.access (w.index + 1)) else .empty) := by
  intro b t
  have ht : t = _ := completeWord_eq (decision := decision) (effect := effect) hw hc
  have hb : nextWord s.ctx w b = b.setPath (nextWord s.ctx w b).path := nextWord_path ..
  obtain ⟨h1, h2⟩ := decided_follows s.blk.path.requests decision
    ((s.setMem (carryWord w s.mem)).setBlk (nextWord s.ctx w b))
  rw [← ht] at h1 h2
  obtain ⟨o1, o2, o3⟩ := nextWord_others s.ctx w b
  have hh := nextWord_host s.ctx w b
  have hne : ∀ a, (nextWord s.ctx w b).path.host ≠ .portWait a := by
    intro a
    rw [hh]
    split <;> simp
  obtain ⟨p1, p2, _, p4⟩ := h2
  obtain ⟨p5, p6⟩ := p4 hne
  refine ⟨?_, p1.trans o1, p2.trans o2, p6.trans o3, p5.trans hh⟩
  rw [hb] at h1
  exact followsButPath_setPath h1

/-! ### An internal access's completion -/

theorem completeAccess_eq {kinds : List AccessKind} {decision : Decision} {effect : List Word → State → State} {s : State}
    {a : Access} {ab : Bool} (hp : s.blk.path.port = .internal a ab) (hk : a.kind ∈ kinds) :
    completeAccess kinds decision effect s =
      (if ab then (s.setMem (s.mem.carry a)).setBlk (freePort s.blk)
        else effect (s.mem.readWords a.addr a.count) ((s.setMem (s.mem.carry a)).setBlk (freePort s.blk))).decided
        s.blk.path.requests decision := by
  unfold completeAccess
  rw [hp]
  simp [hk]

theorem completeAccess_other {kinds : List AccessKind} {decision : Decision} {effect : List Word → State → State} {s : State}
    (h : ∀ a ab, s.blk.path.port = .internal a ab → a.kind ∉ kinds) : completeAccess kinds decision effect s = s := by
  unfold completeAccess
  split
  · rename_i a ab hp
    simp [h a ab hp]
  · rfl
  · rfl

/-- The completion of an access by an effect on the blocks alone. -/
theorem completeAccess_spec {kinds : List AccessKind} {decision : Decision} {f : Ctx → List Word → Blocks → Blocks} {s : State}
    {a : Access} (hp : s.blk.path.port = .internal a false) (hk : a.kind ∈ kinds) :
    let b := f s.ctx (s.mem.readWords a.addr a.count) (freePort s.blk)
    let t := completeAccess kinds decision (onBlocks f) s
    FollowsFrom ((s.setMem (s.mem.carry a)).setBlk b) t := by
  intro b t
  have ht : t = _ := completeAccess_eq (decision := decision) (effect := onBlocks f) hp hk
  have h := decided_follows s.blk.path.requests decision
    ((s.setMem (s.mem.carry a)).setBlk b)
  rw [ht]
  exact h

end Sys2Proof.Machine
end

