-- ==== Sys2Proof/Laws/Exec.lean ====
section
/-! SUPPORT. What a command can do to job memory and to the queue, said once for all commands. -/

namespace Sys2Proof.Machine

/-- How memory may change in a step: not at all, by the host word carried, or by the internal access carried. -/
def MemStep (s t : State) : Prop :=
  t.mem = s.mem ∨ (∃ w, s.blk.path.carried = some w ∧ t.mem = carryWord w s.mem) ∨
    ∃ a ab, s.blk.path.port = .internal a ab ∧ t.mem = s.mem.carry a

/-- How a step changes memory and the queue. -/
def Outside (s t : State) : Prop := MemStep s t ∧ t.pending = s.pending

theorem outside_same {s t : State} (hm : t.mem = s.mem) (hp : t.pending = s.pending) : Outside s t := ⟨.inl hm, hp⟩

theorem completeWord_outside (c : WordClass) (decision : Decision) (f : Ctx → CarriedWord → Blocks → Blocks) (s : State) :
    Outside s (completeWord c decision f s) := by
  unfold completeWord
  split
  · exact outside_same rfl rfl
  · rename_i w hw
    split
    · exact ⟨.inr (.inl ⟨w, hw, by simp⟩), by simp⟩
    · exact outside_same rfl rfl

/-- An effect of an access that keeps memory and the queue. -/
def KeepsOutside (f : List Word → State → State) : Prop :=
  ∀ ws s, (f ws s).mem = s.mem ∧ (f ws s).pending = s.pending

theorem onBlocks_keepsOutside (f : Ctx → List Word → Blocks → Blocks) : KeepsOutside (onBlocks f) :=
  fun _ _ => ⟨rfl, rfl⟩

theorem coldResult_outside (code : ResultCode) (a : Arming) (s : State) :
    (coldResult code a s).mem = s.mem ∧ (coldResult code a s).pending = s.pending := ⟨rfl, rfl⟩

theorem warmResult_outside (d : SnapshotData) (a : Arming) (s : State) :
    (warmResult d a s).mem = s.mem ∧ (warmResult d a s).pending = s.pending := ⟨rfl, rfl⟩

theorem mountRead_keepsOutside : KeepsOutside mountRead := by
  intro ws s
  unfold mountRead
  split
  · exact ⟨rfl, rfl⟩
  · dsimp only
    split
    · exact ⟨rfl, rfl⟩
    · unfold mountDone
      split
      · exact ⟨rfl, rfl⟩
      · split
        · exact coldResult_outside ..
        · split <;> exact ⟨rfl, rfl⟩

theorem snapshotRead_keepsOutside : KeepsOutside snapshotRead := by
  intro ws s
  unfold snapshotRead
  split
  · exact ⟨rfl, rfl⟩
  · dsimp only
    split
    · exact ⟨rfl, rfl⟩
    · split
      · exact ⟨rfl, rfl⟩
      · split
        · exact warmResult_outside ..
        · exact coldResult_outside ..

theorem completeAccess_outside (ks : List AccessKind) (decision : Decision) (f : List Word → State → State)
    (hf : KeepsOutside f) (s : State) : Outside s (completeAccess ks decision f s) := by
  unfold completeAccess
  split
  · rename_i a ab hp
    split
    · refine ⟨.inr (.inr ⟨a, ab, hp, ?_⟩), ?_⟩
      · simp only [decided_mem]
        split
        · rfl
        · rw [(hf _ _).1]; rfl
      · simp only [decided_pending]
        split
        · rfl
        · rw [(hf _ _).2]; rfl
    · exact outside_same rfl rfl
  · exact outside_same rfl rfl
  · exact outside_same rfl rfl

theorem unitEvent_outside (order : List Taker) (d : Travel) (s : State) :
    (unitEvent order d s).mem = s.mem ∧ (unitEvent order d s).pending = s.pending := by
  unfold unitEvent
  dsimp only
  split <;> exact ⟨rfl, rfl⟩

theorem pulse_outside (order : List Taker) (d : Travel) (s : State) :
    (pulse order d s).mem = s.mem ∧ (pulse order d s).pending = s.pending := by
  unfold pulse
  dsimp only
  split
  · simp [unitEvent_outside]
  · exact ⟨rfl, rfl⟩

/-- What every command does to memory and to the queue. -/
theorem exec_outside (c : Instr) (s t : State) (h : exec c s = .next t) : Outside s t := by
  cases c <;>
    simp only [exec, execStopDetectExpiry, execSpeedIntervalExpiry, execMarkPulseExpiry, execPowerOnReset,
      execSeamEdge, execLiftTimerExpiry, execAccountingTimerExpiry, execCycleTimerExpiry, execQuietWaitTimeout,
      execCommandFrameSent, execReplyFirstCharacter, execReplyTimerExpiry, execStallTimerExpiry,
      execStatusTimerExpiry, execExchangeQuietReached] at h
  case encoderPulse a b o =>
    unfold execEncoderPulse at h
    dsimp only at h
    split at h <;> cases h <;>
      first | exact outside_same rfl rfl | exact outside_same (pulse_outside ..).1 (pulse_outside ..).2
  case resetLine a b => cases h; exact outside_same (by simp [lineReset]) (by simp [lineReset])
  case hostAccessPresented a =>
    unfold execHostAccessPresented at h
    split at h
    · cases h
    · split at h <;> cases h <;> exact outside_same rfl rfl
  case frameClosed b f e =>
    unfold execFrameClosed at h
    split at h
    · split at h <;> cases h <;> exact outside_same rfl rfl
    · cases h; exact outside_same rfl rfl
  case mountBurstReturned l => cases h; exact completeAccess_outside _ _ _ mountRead_keepsOutside _
  case snapshotReadReturned l => cases h; exact completeAccess_outside _ _ _ snapshotRead_keepsOutside _
  all_goals
    first
      | cases h; exact completeWord_outside ..
      | cases h; exact completeAccess_outside _ _ _ (onBlocks_keepsOutside _) _
      | cases h; exact outside_same rfl rfl
      | split at h <;> cases h <;> exact outside_same rfl rfl

end Sys2Proof.Machine
end

