-- ==== Sys2Proof/Laws/Motion.lean ====
section
/-! SUPPORT. The encoder: what the two next states of the pair give, and what a pulse does. -/

namespace Sys2Proof.Machine

theorem decode_forward (q : Bool × Bool) : decodePair q (nextPair q) = .forward := by
  obtain ⟨a, b⟩ := q; cases a <;> cases b <;> rfl

theorem decode_backward (q : Bool × Bool) : decodePair q (nextPair (nextPair (nextPair q))) = .backward := by
  obtain ⟨a, b⟩ := q; cases a <;> cases b <;> rfl

theorem decode_opposite (a b : Bool) : decodePair (a, b) (!a, !b) = .stepError := by
  cases a <;> cases b <;> rfl

theorem takePulse_forward_quiet {d : Nat} {r : Int} (h : r + 1 ≠ d) : takePulse d r .fwd = (r + 1, none) := if_neg h
theorem takePulse_forward_event {d : Nat} {r : Int} (h : r + 1 = d) : takePulse d r .fwd = (0, some .fwd) := if_pos h
theorem takePulse_backward_quiet {d : Nat} {r : Int} (h : r - 1 ≠ -(d : Int)) :
    takePulse d r .back = (r - 1, none) := if_neg h
theorem takePulse_backward_event {d : Nat} {r : Int} (h : r - 1 = -(d : Int)) :
    takePulse d r .back = (0, some .back) := if_pos h

/-- The state with new levels of the pair. -/
def withPair (q : Bool × Bool) (s : State) : State := s.setMotion { s.motion with encA := q.1, encB := q.2 }

theorem exec_forward (s : State) (order : List Taker) :
    exec (.encoderPulse (nextPair (s.motion.encA, s.motion.encB)).1 (nextPair (s.motion.encA, s.motion.encB)).2 order) s =
      .next (pulse order .fwd (withPair (nextPair (s.motion.encA, s.motion.encB)) s)) := by
  simp only [exec, execEncoderPulse, Prod.mk.eta, decode_forward]
  rfl

theorem exec_backward (s : State) (order : List Taker) :
    exec (.encoderPulse (nextPair (nextPair (nextPair (s.motion.encA, s.motion.encB)))).1
        (nextPair (nextPair (nextPair (s.motion.encA, s.motion.encB)))).2 order) s =
      .next (pulse order .back (withPair (nextPair (nextPair (nextPair (s.motion.encA, s.motion.encB)))) s)) := by
  simp only [exec, execEncoderPulse, Prod.mk.eta, decode_backward]
  rfl

theorem pulse_quiet {order : List Taker} {d : Travel} {s : State} {r : Int}
    (h : takePulse s.cfg.divisor s.motion.residue d = (r, none)) :
    pulse order d s = s.setMotion { s.motion with residue := r } := by
  unfold pulse
  rw [h]

theorem pulse_event {order : List Taker} {d e : Travel} {s : State} {r : Int}
    (h : takePulse s.cfg.divisor s.motion.residue d = (r, some e)) :
    pulse order d s = (unitEvent order e (s.setMotion { s.motion with residue := r })).decided s.blk.path.requests .withNew := by
  unfold pulse
  rw [h]
  rfl

theorem unitEvent_idle {order : List Taker} {d : Travel} {s : State} (h : s.blk.live = false) :
    unitEvent order d s = (s.setMotion (eventMotion s.cfg.stopDetect d s.motion)).setBlk (markMoved s.blk) := by
  unfold unitEvent
  simp [h]

theorem unitEvent_live {order : List Taker} {d : Travel} {s : State} (h : s.blk.live = true) :
    unitEvent order d s =
      let m := eventMotion s.cfg.stopDetect d s.motion
      let m' := applyMove (moveOf m d) m
      (s.setMotion m').setBlk (handMove ⟨s.cfg, m'⟩ (decide (d = .fwd ∧ s.motion.state ≠ .advancing)) order
        (moveOf m d) (markMoved s.blk)) := by
  unfold unitEvent
  simp [h]

/-- The moved marker is all that a unit event changes of the restart unit before its takers. -/
theorem markMoved_eq (b : Blocks) : markMoved b = b.setRestart { b.restart with moved := (markMoved b).restart.moved } := by
  unfold markMoved
  split
  · split <;> rfl
  · rfl

@[simp] theorem markMoved_live (b : Blocks) : (markMoved b).live = b.live := by
  rw [markMoved_eq]; rfl

end Sys2Proof.Machine
end

