-- ==== Sys2Proof/Laws/Decides.lean ====
section
/-! SUPPORT. When the step of a command makes a grant decision, and what an end of a step that holds its decision leaves
(R182, log 9). -/

namespace Sys2Proof.Machine

/-- An end of a step that holds its decision changes of the path unit the request slots alone. -/
theorem settled_held_host (s : State) : (s.settled .held).blk.path.host = s.blk.path.host := by
  obtain ⟨sl, h⟩ := pumps_path s.ctx s.blk
  have held (b : Blocks) : arbitrate s.ctx .held b = b := by
    unfold arbitrate
    split <;> simp_all [Path.weighed]
  have h' : (arbitrate s.ctx .held
      (pumpReport s.ctx (pumpPlan s.ctx (pumpCache s.ctx (pumpRestart s.ctx s.blk))))).path.host = s.blk.path.host := by
    rw [held, h]
  show (captureAtGrant _ _).path.host = _
  rw [← h']
  unfold captureAtGrant
  split
  · split <;> rfl
  · rfl

/-- The next command's event takes place after a held end of a step as it did before it. -/
theorem settled_held_decides (s : State) (c : Instr) : (s.settled .held).decides c = s.decides c := by
  have hh := settled_held_host s
  have hb : (s.settled .held).blk.stations = s.blk.stations ∧ (s.settled .held).blk.oven = s.blk.oven ∧
      (s.settled .held).blk.field = s.blk.field := by
    simp [State.settled]
  have hl : (s.settled .held).blk.live = s.blk.live := by
    have := settle_restart s.ctx .held s.blk
    simp only [State.settled, Blocks.live, State.setBlk_blk]
    rw [this]
  have hr : (s.settled .held).blk.report.stallTimer = s.blk.report.stallTimer ∧
      (s.settled .held).blk.report.statusTimer = s.blk.report.statusTimer := by
    have h := (settle_reportFollows s.ctx .held s.blk).1
    simp only [State.settled, State.setBlk_blk]
    rw [h]
    exact ⟨rfl, rfl⟩
  cases c <;> simp only [State.decides, State.unitAt, Blocks.stationOf, settled_motion, settled_cfg, hb, hl, hr, hh]

theorem unitEvent_moments (order : List Taker) (d : Travel) (s : State) :
    (unitEvent order d s).moments = s.moments := by
  unfold unitEvent
  dsimp only
  split <;> rfl

/-- A command that decides ends its step with a grant decision. -/
theorem decides_exec (s : State) (c : Instr) (h : s.decides c = true) :
    ∃ t : State, exec c s = .next (t.decided s.blk.path.requests .withNew) ∧ t.pending = s.pending ∧ t.moments = s.moments := by
  cases c <;> simp only [State.decides, Bool.and_eq_true, Bool.false_eq_true, decide_eq_true_eq,
    Option.isSome_iff_exists, Bool.not_eq_true'] at h
  case encoderPulse a b o =>
    obtain ⟨e, h⟩ := h
    have go : ∀ d, (takePulse s.cfg.divisor s.motion.residue d).2 = some e →
        ∃ t, Host.Outcome.next (pulse o d (s.setMotion { s.motion with encA := a, encB := b })) =
          (.next (State.decided s.blk.path.requests .withNew t) : Host.Outcome State Fault Refusal) ∧
          t.pending = s.pending ∧ t.moments = s.moments := by
      intro d hd
      exact ⟨_, congrArg Host.Outcome.next (pulse_event (Prod.ext rfl hd)), (unitEvent_outside ..).2, unitEvent_moments ..⟩
    simp only [State.unitAt] at h
    simp only [exec, execEncoderPulse]
    split at h <;> rename_i hp <;> simp only [hp]
    · exact go _ h
    · exact go _ h
    all_goals cases h
  case frameClosed b f e =>
    simp only [exec, execFrameClosed, h, not_false_eq_true, and_self, if_true, Bool.false_eq_true]
    split <;> exact ⟨_, rfl, rfl, rfl⟩
  all_goals
    simp only [exec, execStopDetectExpiry, execSeamEdge, execLiftTimerExpiry, execAccountingTimerExpiry,
      execCycleTimerExpiry, execExchangeQuietReached, execQuietWaitTimeout, execCommandFrameSent, execReplyFirstCharacter,
      execReplyTimerExpiry, execStallTimerExpiry, execStatusTimerExpiry, execHostAccessPresented]
    first
      | (obtain ⟨⟨e, h⟩, h'⟩ := h
         simp only [h, h']
         exact ⟨_, rfl, rfl, rfl⟩)
      | (obtain ⟨e, h⟩ := h
         simp only [h]
         exact ⟨_, rfl, rfl, rfl⟩)
      | (simp only [h, ne_eq, not_false_eq_true, and_self, if_true, if_false, Bool.not_true, Bool.false_eq_true]
         exact ⟨_, rfl, rfl, rfl⟩)
end Sys2Proof.Machine
end

