-- ==== Sys2Proof/Laws/PerInstr.lean ====
section
/-! SUPPORT. Statements made of each command: what makes its operands legal. -/

namespace Sys2Proof.Laws

/-- Operands that the outside can give: an order that names every taker once (log 8), a frame of 1 to 8 characters
(R142), an access of 1 to 8 words (R171). A command with other operands has no check. -/
def LegalOperands : Instr → Prop
  | .encoderPulse _ _ order => order.Perm Taker.all
  | .frameClosed bytes _ _ => 1 ≤ bytes.length ∧ bytes.length ≤ 8
  | .hostAccessPresented a => 1 ≤ a.count ∧ a.count ≤ 8
  | _ => True

/-- The check of well-formedness accepts exactly the commands of legal operands. -/
def Operands.Statement (i : Instr) : Prop := i.wf = true ↔ LegalOperands i

/-- The list of takers names each once. -/
theorem count_takers (t : Taker) : Taker.all.count t = 1 := by
  rcases t with _ | _ | k | _ | _ | _
  case station => revert k; decide
  all_goals rfl

theorem orderWf_iff (order : List Taker) : orderWf order = true ↔ order.Perm Taker.all := by
  constructor
  · intro h
    simp only [orderWf, Bool.and_eq_true, List.all_eq_true, decide_eq_true_eq] at h
    rw [List.perm_iff_count]
    intro t
    rw [h.1 t (List.count_pos_iff.mp (by rw [count_takers]; decide)), count_takers]
  · intro h
    simp only [orderWf, Bool.and_eq_true, List.all_eq_true, decide_eq_true_eq]
    refine ⟨fun t _ => ?_, h.length_eq⟩
    rw [List.perm_iff_count.mp h t, count_takers]

theorem Operands.encoderPulse (encA encB : Bool) (order : List Taker) :
    Statement (.encoderPulse encA encB order) := orderWf_iff order
theorem Operands.stopDetectExpiry : Statement .stopDetectExpiry := ⟨fun _ => trivial, fun _ => rfl⟩
theorem Operands.speedIntervalExpiry : Statement .speedIntervalExpiry := ⟨fun _ => trivial, fun _ => rfl⟩
theorem Operands.seamEdge (rising : Bool) : Statement (.seamEdge rising) := ⟨fun _ => trivial, fun _ => rfl⟩
theorem Operands.planWrite (decision : Decision) : Statement (.planWrite decision) := ⟨fun _ => trivial, fun _ => rfl⟩
theorem Operands.planReadReturned (decision : Decision) :
    Statement (.planReadReturned decision) := ⟨fun _ => trivial, fun _ => rfl⟩
theorem Operands.freeingWriteComplete (decision : Decision) :
    Statement (.freeingWriteComplete decision) := ⟨fun _ => trivial, fun _ => rfl⟩
theorem Operands.settingBurstReturned (decision : Decision) :
    Statement (.settingBurstReturned decision) := ⟨fun _ => trivial, fun _ => rfl⟩
theorem Operands.settingsWrite (decision : Decision) : Statement (.settingsWrite decision) := ⟨fun _ => trivial, fun _ => rfl⟩
theorem Operands.markPulseExpiry : Statement .markPulseExpiry := ⟨fun _ => trivial, fun _ => rfl⟩
theorem Operands.mountWrite (decision : Decision) : Statement (.mountWrite decision) := ⟨fun _ => trivial, fun _ => rfl⟩
theorem Operands.remountRequest (decision : Decision) : Statement (.remountRequest decision) := ⟨fun _ => trivial, fun _ => rfl⟩
theorem Operands.trim (decision : Decision) : Statement (.trim decision) := ⟨fun _ => trivial, fun _ => rfl⟩
theorem Operands.liftTimerExpiry (screen : Fin 16) :
    Statement (.liftTimerExpiry screen) := ⟨fun _ => trivial, fun _ => rfl⟩
theorem Operands.accountingTimerExpiry : Statement .accountingTimerExpiry := ⟨fun _ => trivial, fun _ => rfl⟩
theorem Operands.cycleTimerExpiry : Statement .cycleTimerExpiry := ⟨fun _ => trivial, fun _ => rfl⟩
theorem Operands.exchangeQuietReached : Statement .exchangeQuietReached := ⟨fun _ => trivial, fun _ => rfl⟩
theorem Operands.quietWaitTimeout (elapsed : Nat) :
    Statement (.quietWaitTimeout elapsed) := ⟨fun _ => trivial, fun _ => rfl⟩
theorem Operands.commandFrameSent : Statement .commandFrameSent := ⟨fun _ => trivial, fun _ => rfl⟩
theorem Operands.replyFirstCharacter : Statement .replyFirstCharacter := ⟨fun _ => trivial, fun _ => rfl⟩
theorem Operands.replyTimerExpiry (elapsed : Nat) :
    Statement (.replyTimerExpiry elapsed) := ⟨fun _ => trivial, fun _ => rfl⟩
theorem Operands.frameClosed (bytes : List Byte) (framing : Bool) (elapsed : Nat) :
    Statement (.frameClosed bytes framing elapsed) := by
  simp [Statement, Instr.wf, frameWf, LegalOperands]
theorem Operands.recordBurstComplete (decision : Decision) :
    Statement (.recordBurstComplete decision) := ⟨fun _ => trivial, fun _ => rfl⟩
theorem Operands.recordWord0Complete (decision : Decision) :
    Statement (.recordWord0Complete decision) := ⟨fun _ => trivial, fun _ => rfl⟩
theorem Operands.outcomeSlotFree (decision : Decision) : Statement (.outcomeSlotFree decision) := ⟨fun _ => trivial, fun _ => rfl⟩
theorem Operands.stallTimerExpiry : Statement .stallTimerExpiry := ⟨fun _ => trivial, fun _ => rfl⟩
theorem Operands.statusTimerExpiry : Statement .statusTimerExpiry := ⟨fun _ => trivial, fun _ => rfl⟩
theorem Operands.statusBurstComplete (decision : Decision) :
    Statement (.statusBurstComplete decision) := ⟨fun _ => trivial, fun _ => rfl⟩
theorem Operands.acknowledge (decision : Decision) : Statement (.acknowledge decision) := ⟨fun _ => trivial, fun _ => rfl⟩
theorem Operands.pageSelect (decision : Decision) : Statement (.pageSelect decision) := ⟨fun _ => trivial, fun _ => rfl⟩
theorem Operands.hostAccessPresented (access : HostAccess) : Statement (.hostAccessPresented access) := by
  simp [Statement, Instr.wf, HostAccess.wf, LegalOperands]
theorem Operands.hostWordComplete (decision : Decision) :
    Statement (.hostWordComplete decision) := ⟨fun _ => trivial, fun _ => rfl⟩
theorem Operands.snapshotWindowWrite (decision : Decision) :
    Statement (.snapshotWindowWrite decision) := ⟨fun _ => trivial, fun _ => rfl⟩
theorem Operands.powerOnReset (encA encB : Bool) :
    Statement (.powerOnReset encA encB) := ⟨fun _ => trivial, fun _ => rfl⟩
theorem Operands.resetLine (encA encB : Bool) : Statement (.resetLine encA encB) := ⟨fun _ => trivial, fun _ => rfl⟩
theorem Operands.armingRequest (decision : Decision) : Statement (.armingRequest decision) := ⟨fun _ => trivial, fun _ => rfl⟩
theorem Operands.resultWordWritten (decision : Decision) :
    Statement (.resultWordWritten decision) := ⟨fun _ => trivial, fun _ => rfl⟩
theorem Operands.anchorBurstReturned (decision : Decision) :
    Statement (.anchorBurstReturned decision) := ⟨fun _ => trivial, fun _ => rfl⟩
theorem Operands.mountBurstReturned (decision : Decision) :
    Statement (.mountBurstReturned decision) := ⟨fun _ => trivial, fun _ => rfl⟩
theorem Operands.snapshotReadReturned (decision : Decision) :
    Statement (.snapshotReadReturned decision) := ⟨fun _ => trivial, fun _ => rfl⟩
theorem Operands.outcomeMapReadReturned (decision : Decision) :
    Statement (.outcomeMapReadReturned decision) := ⟨fun _ => trivial, fun _ => rfl⟩
theorem Operands.snapshotBurstComplete (decision : Decision) :
    Statement (.snapshotBurstComplete decision) := ⟨fun _ => trivial, fun _ => rfl⟩
theorem Operands.snapshotClosingComplete (decision : Decision) :
    Statement (.snapshotClosingComplete decision) := ⟨fun _ => trivial, fun _ => rfl⟩

end Sys2Proof.Laws
end

