-- ==== Sys2Proof/Laws/Records.lean ====
section
/-! SUPPORT. What a change of one record of a numbered set leaves: a station, a zone, a module, a segment of the track;
and where the ENTERING segment can close. -/

namespace Sys2Proof.Machine

section Records
variable (b : Blocks)

@[simp] theorem modStation_same (k : Fin 16) (f : Station → Station) :
    (modStation k f b).stations.station[k] = f b.stations.station[k] := by
  simp [modStation, Blocks.modStations, Blocks.setStations, Bank.modify]

theorem modStation_other {k j : Fin 16} (h : j ≠ k) (f : Station → Station) :
    (modStation k f b).stations.station[j] = b.stations.station[j] := by
  have : k.val ≠ j.val := fun e => h (Fin.ext e.symm)
  simp [modStation, Blocks.modStations, Blocks.setStations, Bank.modify, this]

@[simp] theorem modZone_same (z : Fin 8) (f : Zone → Zone) : (modZone z f b).oven.zone[z] = f b.oven.zone[z] := by
  simp [modZone, Blocks.modOven, Blocks.setOven, Bank.modify]

theorem modZone_other {z j : Fin 8} (h : j ≠ z) (f : Zone → Zone) :
    (modZone z f b).oven.zone[j] = b.oven.zone[j] := by
  have : z.val ≠ j.val := fun e => h (Fin.ext e.symm)
  simp [modZone, Blocks.modOven, Blocks.setOven, Bank.modify, this]

@[simp] theorem modModule_same (a : Fin 24) (f : Module → Module) :
    (modModule a f b).field.module[a] = f b.field.module[a] := by
  simp [modModule, Blocks.modField, Blocks.setField, Bank.modify]

theorem modModule_other {a j : Fin 24} (h : j ≠ a) (f : Module → Module) :
    (modModule a f b).field.module[j] = b.field.module[j] := by
  have : a.val ≠ j.val := fun e => h (Fin.ext e.symm)
  simp [modModule, Blocks.modField, Blocks.setField, Bank.modify, this]

end Records

/-- The segment of a number after a change of it that keeps numbers. -/
theorem find_modSeg (q : Nat) (f : Segment → Segment) (hf : ∀ g, (f g).seq = g.seq) (t : Track) :
    (modSeg q f t).find q = (t.find q).map f := by
  obtain ⟨segs, _⟩ := t
  simp only [modSeg, Track.find]
  induction segs with
  | nil => rfl
  | cons g r ih =>
    by_cases h : g.seq = q
    · simp [h, hf]
    · simpa [h] using ih

/-- The shapes of the segments stay under a change that keeps each shape. -/
theorem modSeg_shapes (q : Nat) (f : Segment → Segment) (hf : ∀ g, segmentShape (f g) = segmentShape g) (t : Track) :
    (modSeg q f t).segs.map segmentShape = t.segs.map segmentShape := by
  simp only [modSeg, List.map_map]
  refine List.map_congr_left fun g _ => ?_
  by_cases h : g.seq = q <;> simp [h, hf]

/-- A segment closes beyond its head, at the boundary position where that lies beyond it (R18, R27, log 46). -/
theorem head_lt_closingAt (g : Segment) (p : Nat) : g.head < closingAt g p := by
  unfold closingAt; omega

theorem closingAt_of_lt {g : Segment} {p : Nat} (h : g.head < p) : closingAt g p = p := by
  unfold closingAt; omega

/-- The last result word of an arming refused from DORMANT has been written (log 19). -/
theorem resultWritten_ended {r : Restart} (hp : r.part = .arming false) (ha : r.arming = none) (hw : r.work.tail = []) :
    resultWritten r = { r with work := [], part := .dormant } := by
  simp [resultWritten, hp, ha, hw]

/-- Any other result word, or the start word, has been written. -/
theorem resultWritten_going {r : Restart} (h : ¬ (r.part = .arming false ∧ r.arming = none ∧ r.work.tail = [])) :
    resultWritten r = { r with work := r.work.tail } := by
  simp only [resultWritten]
  exact if_neg h

end Sys2Proof.Machine
end

