-- ==== Sys2Proof/Laws/Stations.lean ====
section
/-! SUPPORT. What a change of one station, an evaluation of its want and a screen cue do (R90, R91, R103). -/

namespace Sys2Proof.Machine

theorem stationOf_modStation (k : Fin 16) (f : Station → Station) (b : Blocks) :
    (modStation k f b).stationOf k = f (b.stationOf k) :=
  modStation_same b k f

theorem modStation_modStation (k : Fin 16) (f g : Station → Station) (b : Blocks) :
    modStation k f (modStation k g b) = modStation k (fun st => f (g st)) b := by
  have h : Bank.modify (Bank.modify b.stations.station k g) k f = Bank.modify b.stations.station k fun st => f (g st) := by
    simp [Bank.modify]
  exact congrArg (fun v => b.setStations { b.stations with station := v }) h

/-- A change of want moves the lift state and its timer alone. -/
theorem liftWant_lift (n : Nat) (w : Want) (st : Station) :
    ∃ l t, liftWant n w st = { st with lift := l, liftTimer := t } := by
  rcases st with ⟨m, l⟩
  cases l <;> cases w <;> exact ⟨_, _, rfl⟩

theorem liftWant_isFault (n : Nat) (w : Want) (st : Station) : (liftWant n w st).lift.isFault = st.lift.isFault := by
  rcases st with ⟨m, l⟩
  cases l <;> cases w <;> rfl

/-- The want reads of its station the mount record, the holding, the override and whether the lift is in FAULT. -/
theorem wantOf_modStation (x : Ctx) (k : Fin 16) (f : Station → Station) (b : Blocks)
    (mount : (f (b.stationOf k)).mount = (b.stationOf k).mount)
    (fault : (f (b.stationOf k)).lift.isFault = (b.stationOf k).lift.isFault)
    (holding : (f (b.stationOf k)).holding = (b.stationOf k).holding)
    (override : (f (b.stationOf k)).override = (b.stationOf k).override) :
    wantOf x (modStation k f b) k = wantOf x b k := by
  simp only [wantOf, printsHere, stationOf_modStation, mount, fault, holding, override]
  rfl

/-- An evaluation leaves the want that it finds. -/
theorem wantOf_evaluateWant (x : Ctx) (b : Blocks) (k : Fin 16) : wantOf x (evaluateWant x b k) k = wantOf x b k := by
  simp only [evaluateWant]
  split
  · rfl
  · obtain ⟨l, t, e⟩ := liftWant_lift b.stations.liftTimeout (wantOf x b k) { b.stationOf k with want := wantOf x b k }
    exact wantOf_modStation x k _ b (by rw [e]) (liftWant_isFault ..) (by rw [e]) (by rw [e])

/-- Everything a screen cue that its station accepts can do: its own change of the station, and a change of want where it
changes the override. -/
theorem takeScreenCue_eq (x : Ctx) (b : Blocks) (k : Fin 16) (action : CueAction) (q : Nat) :
    let st := b.stationOf k
    let cued := screenCue action q st
    let w := wantOf x (takeScreenCue x b k action q) k
    takeScreenCue x b k action q = modStation k (fun _ =>
      if cued.override = st.override ∨ w = st.want then cued
      else liftWant b.stations.liftTimeout w { cued with want := w }) b := by
  intro st cued w
  have want : cued.want = st.want := by simp only [cued]; cases action <;> rfl
  have at_k : (modStation k (screenCue action q) b).stationOf k = cued := stationOf_modStation ..
  by_cases h : cued.override = st.override
  · rw [takeScreenCue, at_k, if_pos h]
    simp only [h, true_or, if_true]; rfl
  · have e : takeScreenCue x b k action q = evaluateWant x (modStation k (screenCue action q) b) k := by
      rw [takeScreenCue, at_k, if_neg h]
    have hw : w = wantOf x (modStation k (screenCue action q) b) k := by
      simp only [w]; rw [e]; exact wantOf_evaluateWant ..
    rw [e]; simp only [evaluateWant]; rw [← hw, at_k, want]
    by_cases hw' : w = st.want
    · rw [if_pos hw']; simp only [h, hw', or_true, if_true]; rfl
    · rw [if_neg hw', modStation_modStation]; simp only [h, hw', or_self, if_false]; rfl

/-- A change of the track that leaves the ranges of its seams has no want evaluated for a span. -/
theorem evaluateMoved_same (x : Ctx) (old : Track) (b : Blocks)
    (h : seamRanges x.cfg.seamLength old = seamRanges x.cfg.seamLength b.track) : evaluateMoved x old b = b := by
  have : spansMoved x b.stations old b.track = [] := by
    simp only [spansMoved, h, bne_self_eq_false, List.filter_eq_nil_iff]
    intro k _
    split <;> simp
  rw [evaluateMoved, this]
  rfl

/-- A station that keeps its holding takes no boundary. -/
theorem stationBoundary_same (x : Ctx) (b : Blocks) (k : Fin 16)
    (h : b.track.holdingAt (stationCoordinate x k) = (b.stationOf k).holding) : stationBoundary x b k = b := by
  have : refreshStation x b k = b := by simp only [refreshStation, h, if_true]
  simp only [stationBoundary, this, if_true]

end Sys2Proof.Machine
end

