-- ==== Sys2Proof/Tests/Slice0.lean ====
section
/-! SUPPORT. Tests: ill-formed commands are refused, small runs of single commands, and, for every statement with
hypotheses, states and operands that meet them. -/

namespace Sys2Proof.Tests

/- One theorem at a time: each that waits for another holds a thread with its stack. -/
set_option Elab.async false

open Sys2Proof.Machine

/-! ### Small states -/

/-- Anchor data of a line of 6 screens and 4 zones, 4 plan slots and 8 outcome slots. -/
def line : Anchor :=
  { Anchor.reset with
    planBase := 4096, planSlots := 4, settingsBase := 65536, mountBase := 8192, outcomeBase := 12288, outcomeSlots := 8
    statusBase := 16384, snapshotBase := 20480, screenCount := 6, zoneCount := 4, ovenExit := 700000
    exitOffset := 1500000, detectorDistance := 30000, seamLength := 2000, minOrder := 5000, backlash := 30
    standbySetpoint := 1100, stage1 := 45, stage2 := 240, stallLimit := 100, statusInterval := 100
    snapshotDistance := 50000, cyclePeriod := 4, replyTimeout := 100, divisor := 1 }

/-- The part in a state, on that line, with nothing in its stores. -/
def inPart (p : PartState) : State :=
  ⟨line, .reset false false, Blocks.reset.setRestart { Restart.reset with part := p }, [], [], []⟩

def armed : State := inPart .armed

/-- A change of the blocks. -/
def withBlk (f : Blocks → Blocks) (s : State) : State := s.setBlk (f s.blk)

/-- A change of the motion unit. -/
def withMotion (f : Motion → Motion) (s : State) : State := s.setMotion (f s.motion)

/-- The memory port carries word 0 of a host access. -/
def carry (a : HostAccess) (j : WordJudgement) (s : State) : State :=
  withBlk (fun b => b.modPath fun p => { p with host := .carrying a 0 j, port := .host }) s

/-- A host write of one word. -/
def write (addr : Nat) (enables : BitVec 4) (value : Word) : HostAccess := .write (BitVec.ofNat 22 addr) [⟨enables, value⟩]

/-- A carried word of a host write of one word. -/
def carried (addr : Nat) (enables : BitVec 4) (value : Word) : CarriedWord := ⟨write addr enables value, 0, .pass⟩

/-- The memory port carries a host write of one word, not dropped. -/
def carryWrite (addr : Nat) (enables : BitVec 4) (value : Word) (s : State) : State :=
  carry (write addr enables value) .pass s

/-- The memory port carries an internal access. -/
def access (a : Access) (s : State) : State := withBlk (fun b => b.modPath fun p => { p with port := .internal a false }) s

/-- The state that a command answers with. -/
def after (c : Instr) (s : State) : Option State :=
  match exec c s with
  | .next t => some t
  | .fault _ => none
  | .refused _ => none

/-! ### Ill-formed commands -/

theorem test_order_missing_a_taker : (Instr.encoderPulse true false (Taker.all.erase (.station 15))).wf = false := by decide
theorem test_order_naming_a_taker_twice :
    (Instr.encoderPulse true false (.track :: Taker.all.erase (.station 15))).wf = false := by decide
theorem test_frame_of_no_character : (Instr.frameClosed [] false 0).wf = false := by decide
theorem test_frame_of_nine_characters : (Instr.frameClosed [0, 0, 0, 0, 0, 0, 0, 0, 0] false 0).wf = false := by decide
theorem test_access_of_no_word : (Instr.hostAccessPresented (.read 0 0)).wf = false := by decide
theorem test_access_of_nine_words : (Instr.hostAccessPresented (.read 0 9)).wf = false := by decide
theorem test_well_formed_commands :
    (Instr.encoderPulse true false Taker.all).wf = true ∧ (Instr.frameClosed [0, 0, 0, 0, 0, 0, 0, 0] false 0).wf = true ∧
      (Instr.hostAccessPresented (.read 0 8)).wf = true ∧ (Instr.hostAccessPresented (.read 0 1)).wf = true := by decide

/-! ### Arithmetic on the spec's own numbers -/

/-- Section 12.1: the cookie, the start word, and the closing word of an identifier. -/
theorem test_constants : Config.cookie = 0x24160A00#32 ∧ Config.warmWord = 0x574D#32 ∧
    validClosing (closingWord 0x0C11) = true ∧ closingWord 0x0C11 = 0xB8C30C11#32 := by decide

/-- R146: the two bytes 05, 00 give a CRC of 41. Section 12.1: the closing words of mount generation 7. -/
theorem test_checks : crc8 [0x05, 0x00] = 0x41#8 ∧ closingWord 7 = 0xB4D50007#32 := by decide +kernel

/-! ### Small runs -/

/-- R2, R4, R5: a forward pulse at divisor 1 moves P and H by one. -/
theorem test_forward_pulse : (after (.encoderPulse true false Taker.all) armed).map (fun t => (t.motion.p, t.motion.h)) =
    some (1, 1) := by decide +kernel

/-- R11: the stop-detect timer's expiry halts the line. -/
theorem test_stop_detect : (after .stopDetectExpiry (withMotion
    (fun m => { m with stopTimer := some 2000, state := .advancing }) armed)).map (fun t => (t.motion.state, t.blk.restart.work)) = some (.halted, [.snapshot]) := by decide +kernel

/-- R33: a seam is due one detector distance beyond H. -/
theorem test_seam_edge : (after (.seamEdge true) armed).map (fun t => t.blk.track.seams) = some [⟨30000, none⟩] := by decide +kernel

/-- R50: a valid closing word at slot 0 posts it, and the plan reader reads the slot (R54). -/
theorem test_post : (after (.planWrite .withNew) (carryWrite 4099 0xF (closingWord 5) armed)).map
    (fun t => (t.blk.plan.posted, t.blk.plan.postIndex, t.blk.plan.take, t.blk.path.port)) =
    some (1, 1, .reading, .internal ⟨.planRead, 4096, 4, none⟩ false) := by decide +kernel

/-- R171, R175: a partial write stores its enabled byte alone. -/
theorem test_partial_write : (after (.hostWordComplete .withNew) (carryWrite 100000 0x2 0x11223344 armed)).map
    (fun t => (t.mem.readWord 100000, t.blk.path.host)) = some (0x3300#32, .empty) := by decide +kernel

/-- R177: a write of the SNAPSHOT window is dropped and counted. -/
theorem test_snapshot_drop : (after (.snapshotWindowWrite .withNew)
    (carry (write 20480 0xF 1) .dropSnapshot armed)).map (fun t => (t.mem, t.blk.path.dropped)) = some ([], 1) := by decide +kernel

/-- R188: an arming request in DORMANT is answered PENDING by the restart unit's first access. -/
theorem test_arming_request : (after (.armingRequest .withNew) (carryWrite 63 0xF (closingWord 0x0C11) .reset)).map
    (fun t => (t.blk.restart.part, t.blk.path.port)) =
    some (.arming false, .internal ⟨.resultWrite, 62, 1, some [resultWord .pending 0x0C11]⟩ false) := by decide +kernel

/-- R163: the stall of a read of word 0 of the slot to be written next, and its release. -/
theorem test_stall : (after (.hostAccessPresented (.read 12288 1))
    (withBlk (fun b => b.modReport fun r => { r with full := .replicate 8 false }) armed)).map
    (fun t => (t.blk.path.host, t.blk.report.stallTimer)) = some (.stalled (.read 12288 1), some 100) := by decide +kernel

/-- R144, R146: a cycle begins with the lowest module configured, zone 1's where no screen is mounted; its command frame
is of 6 bytes. -/
theorem test_cycle : (after .cycleTimerExpiry (withBlk (fun b => b.modField fun f => { f with cycleTimer := some 4 })
    armed)).map (fun t => (t.blk.field.exchange.map (·.module), (commandFrame t.ctx t.blk 16).length)) =
    some (some 16, 6) := by decide +kernel

/-- R147: a good reply of a screen module. -/
theorem test_reply : judgeReply 5 true false false [5, 1, 0, 0, 0, 0, crc8 [5, 1, 0, 0, 0, 0]] ≠ .error .crc ∧
    judgeReply 5 true false false [5, 1, 0, 0, 0, 0, crc8 [5, 1, 0, 0, 0, 0] ^^^ 1] = .error .crc ∧
    judgeReply 5 true false false [5, 1] = .error .length ∧ judgeReply 5 true false true [] = .error .framing := by decide +kernel

/-! ### Choices and corners -/

/-- R182, log 9: after a host access's last word the decision is made with the access that comes as the port becomes free,
or at once; at once also where none comes. -/
theorem test_decision_with_coming_access :
    let s := withBlk (fun b => b.modPath fun p => p.request ⟨.planRead, 4096, 4, none⟩) (carryWrite 100000 0xF 1 armed)
    let ports (ms : List Bool) (cs : List Instr) := (after (.hostWordComplete .withNew)
      ((s.setPending cs).setMoments ms)).map fun t => t.blk.path.port
    let plan := some (MemPort.internal ⟨.planRead, 4096, 4, none⟩ false)
    let present := Instr.hostAccessPresented (.read 7 1)
    (((after (.hostWordComplete .withNew) ((s.setPending [present]).setMoments [true])).bind (after present)).map
        fun t => (t.blk.path.port, t.blk.path.hostRun, t.moments)) = some (.host, 1, []) ∧
      (ports [true] [], ports [true] [.stopDetectExpiry, present], ports [true] [.resetLine false false],
        ports [] [present], ports [false] [present]) = (plan, plan, plan, plan, plan) ∧
      (after (.hostWordComplete .beforeNew) ((s.setPending [present]).setMoments [true])).map (fun t => t.blk.path.port) =
        plan := by decide +kernel

/-- R182: requests that arrive together at a free port meet one decision. A host access and the rewrite that the status timer
owes, in either order of the events, or the end of a stall and that rewrite: the host, with a count of 1. A rewrite and a
snapshot: the snapshot. At two moments the first to come is granted. -/
theorem test_requests_at_one_moment :
    let timer := fun (b : Blocks) => b.modReport fun r => { r with statusTimer := some 1, stallTimer := some 1 }
    let s := (withBlk timer armed).setMotion { armed.motion with stopTimer := some 1 }
    let stalled := withBlk (fun b => b.modPath fun p => { p with host := .stalled (.read 12288 1) }) s
    let grant (together : Bool) (c d : Instr) (s : State) :=
      ((after c ((s.setPending [d]).setMoments [together])).bind (after d)).map fun t =>
        (decide (t.blk.path.port = .host), t.blk.path.hostRun, t.blk.path.slots.toList.map Option.isSome)
    let access := Instr.hostAccessPresented (.read 7 1)
    grant true .statusTimerExpiry access s = some (true, 1, [false, false, false, true]) ∧
      grant true access .statusTimerExpiry s = some (true, 1, [false, false, false, true]) ∧
      grant true .stallTimerExpiry .statusTimerExpiry stalled = some (true, 1, [false, false, false, true]) ∧
      grant true .statusTimerExpiry .stopDetectExpiry s = some (false, 0, [false, false, false, true]) ∧
      grant false .statusTimerExpiry access s = some (false, 0, [false, false, false, false]) := by decide +kernel

/-- R179, R186, log 19: an arming refused from DORMANT leaves ARMING with its last result word. -/
theorem test_refused_arming_ends : ∀ rest ∈ [[], [Work.result .refusedBusy 2]],
    (after (.resultWordWritten .withNew) (access ⟨.resultWrite, 62, 1, some [1]⟩ (withBlk (fun b => b.modRestart fun r =>
      { r with work := .result .badCookie 1 :: rest }) (inPart (.arming false))))).map (fun t => t.blk.restart.part) =
    some (if rest = [] then .dormant else .arming false) := by decide +kernel

/-- R18, R195, log 46: below the head of the ENTERING segment, and below the position recorded as passed, no boundary
comes due; a due end at or below the head is moved to the position past it. -/
theorem test_no_boundary_on_passed_fabric :
    let g := { Segment.blank 5000 with seq := 1 }
    let t := { Track.reset with segs := [g], boundary := .deferred false, passed := 8000 }
    dueBoundary 3000 false t = none ∧ dueBoundary 7999 false t = none ∧ dueBoundary 8000 false t = some 8000 ∧
      dueBoundary 5000 false { t with boundary := .opened (some 4000) } = none ∧
      dueBoundary 5001 false { t with boundary := .opened (some 4000) } = some 5001 ∧
      seamFits t g 5000 = false ∧ seamFits t g 5001 = true := by decide +kernel

/-- R114: a repeat that no reply was taken in raises REGISTER where the count stays at K. -/
theorem test_unseen_repeat :
    let b := armed.blk.modStations fun t => { t with station := Bank.modify t.station 0 fun st =>
      { st with outOfReg := 3, mount := { st.mount with persistence := 3 } } }
    ((judgeRepeat 0 b).causes.entry .register).isSome = true ∧ ((judgeRepeat 0 b).stations.station[0]).outOfReg = 3 := by
  decide +kernel

/-- R196, log 22: a lost reference has no presence bit in a snapshot or an outcome record. -/
theorem test_lost_reference :
    let g := { Segment.blank 0 with kind := .print, setting := some ⟨4, 0, 1, .lost⟩ }
    snapshotRef g = none ∧ bit (wordAt (segmentRecord g).words 15) 9 = false ∧ wordAt (segmentRecord g).words 3 = 0 := by
  decide +kernel

/-! ### The hypotheses of the statements are met -/

/-- A state that runs, with something in its stores: a pulse waits, and one cue, one seam and one cause are held. -/
def working : State :=
  (withBlk (fun b => ((raise .planBadClose 3 b).modCues fun q => { q with queue := [⟨9, ⟨.mark, 0, false, 0, 1⟩, 1, false, 1⟩] })
    |>.modTrack fun t => { t with segs := [{ Segment.blank 0 with seq := 1 }], seqCounter := 1, seams := [⟨30000, none⟩] })
    ((armed.setMem [(40, 7)]).setMotion { Motion.reset false false with h := 5, p := 5 })).setPending
    [.speedIntervalExpiry]

theorem witness_StepRunsTheFrontCommand :
    (∃ c rest, working.pending = c :: rest) ∧ State.reset.pending = [] := ⟨⟨_, _, rfl⟩, rfl⟩

theorem witness_EveryCommandAnswers : ∃ c : Instr, c.wf = true := ⟨.encoderPulse true false Taker.all, by decide⟩

/-- The resets: an internal access carried, and each state of the host access. -/
theorem witness_ResetsReturnToDormant :
    (∃ s : State, ∃ x i, s.blk.path.port = .internal x i ∧ ∀ x, s.blk.path.host ≠ .stalled x ∧ s.blk.path.host ≠ .portWait x) ∧
    (∃ s : State, ∃ x, s.blk.path.host = .stalled x) ∧ ∃ s : State, ∃ x, s.blk.path.host = .portWait x :=
  ⟨⟨access ⟨.planRead, 4096, 4, none⟩ armed, _, _, rfl, fun _ => ⟨nofun, nofun⟩⟩,
   ⟨withBlk (fun b => b.modPath fun p => { p with host := .stalled (.read 12288 1) }) armed, _, rfl⟩,
   ⟨withBlk (fun b => b.modPath fun p => { p with host := .portWait (.read 12288 1) }) armed, _, rfl⟩⟩

/-- Each invariant holds in `working`, and its step answers. -/
theorem witness_the_invariants :
    working.mem.wf = true ∧ (working.motion.p ≤ working.motion.h ∧ working.motion.h < Config.positions) ∧
    (-(working.cfg.divisor : Int) < working.motion.residue ∧ working.motion.residue < working.cfg.divisor) ∧
    ArmingSound working ∧
    (working.blk.cues.queue.length ≤ 64 ∧ working.blk.cues.queue.Pairwise (fun a b => a.due ≤ b.due) ∧
      ∀ p ∈ working.blk.cues.queue, working.motion.h < p.due) ∧
    working.blk.track.seams.length ≤ 4 ∧ working.blk.report.queue.length ≤ 8 ∧ working.blk.path.hostRun ≤ 4 ∧
    (∀ k e, working.blk.causes.entry k = some e →
      (1 ≤ e.count ∧ e.count ≤ 255) ∧ (e.level = k.level ∨ (k = .moduleLost ∧ e.level = .trip))) ∧
    working.blk.live = true ∧ (working.blk.path.port = .host ↔ working.blk.path.carried.isSome = true) ∧
    ∃ t, step working = .next t := by
  refine ⟨by decide, by decide, by decide, ⟨nofun, ?_, nofun, ?_⟩, by decide, by decide, by decide, by decide, ?_, rfl,
    by decide, _, rfl⟩
  · intro q x h
    cases q <;> cases h
  · intro x h
    rcases h with h | h <;> cases h
  have only : ∀ k : CauseKind, working.blk.causes.entry k = if k = .planBadClose then some ⟨.report, 3, 1⟩ else none := by
    intro k
    cases k <;> rfl
  intro k e h
  rw [only] at h
  split at h
  · cases h
    subst k
    decide
  · cases h

/-! #### Memory and the port -/

theorem carries {addr : Nat} {e : BitVec 4} {v : Word} {win : Window} {off : Nat} {s : State} (he : e ≠ 0)
    (h : windowOf (carryWrite addr e v s).ctx (carryWrite addr e v s).blk (wordAddr ((BitVec.ofNat 22 addr).toNat + 0)) =
      (win, off)) :
    CarriesWrite (carryWrite addr e v s) (carried addr e v) ⟨e, v⟩ win off := ⟨rfl, rfl, rfl, he, h⟩

theorem accesses (a : Access) (s : State) : CarriesAccess (access a s) a := rfl

/-- Words carried: passed, dropped, read; a word of no command by each of the four ways. -/
theorem witness_HostWordsCompleteAndStore :
    (∃ (s : State) (w : CarriedWord) (v : WriteWord), s.blk.path.carried = some w ∧ w.judged = .pass ∧ w.word = some v ∧
      wordClass s.ctx s.blk w = .plain ∧ s.mem.wf = true ∧ v.enables.getLsbD 3 = true) ∧
    (∃ (s : State) (w : CarriedWord), s.blk.path.carried = some w ∧ w.judged ≠ .pass) ∧
    (∃ (s : State) (w : CarriedWord), s.blk.path.carried = some w ∧ w.word = none) ∧
    (carried 100000 0 1).word = some ⟨0, 1⟩ ∧
    CarriesWrite (carryWrite 100000 0xF 1 armed) (carried 100000 0xF 1) ⟨0xF, 1⟩ .outside 100000 ∧
    CarriesWrite (carryWrite 62 0xF 1 armed) (carried 62 0xF 1) ⟨0xF, 1⟩ .anchor 62 ∧
    CarriesWrite (carryWrite 63 0x7 1 armed) (carried 63 0x7 1) ⟨0x7, 1⟩ .anchor 63 ∧
    CarriesWrite (carryWrite 63 0xF 0 armed) (carried 63 0xF 0) ⟨0xF, 0⟩ .anchor 63 :=
  ⟨⟨carryWrite 100000 0x8 1 armed, _, _, rfl, rfl, rfl, by decide, by decide, by decide⟩,
   ⟨carry (write 20480 0xF 1) .dropSnapshot armed, _, rfl, by decide⟩,
   ⟨carry (.read 5 8) .pass armed, _, rfl, rfl⟩, rfl, carries (by decide) (by decide), carries (by decide) (by decide),
   carries (by decide) (by decide), carries (by decide) (by decide)⟩

/-- Internal accesses: carried or abandoned, a read, and a write of 8 words. -/
theorem witness_InternalAccessesCompleteAndStore :
    (∃ s : State, ∃ a : Access, s.blk.path.port = .internal a false ∧ a.data = none) ∧
    (∃ s : State, ∃ a : Access, s.blk.path.port = .internal a true) ∧
    ∃ s : State, ∃ (a : Access) (ws : List Word), s.blk.path.port = .internal a false ∧ a.data = some ws ∧ ws.length = 8 ∧
      s.mem.wf = true :=
  ⟨⟨access ⟨.planRead, 4096, 4, none⟩ armed, _, rfl, rfl⟩,
   ⟨withBlk (fun b => b.modPath fun p => { p with port := .internal ⟨.planRead, 4096, 4, none⟩ true }) armed, _, rfl⟩,
   ⟨access ⟨.statusBurst, 16384, 8, some (List.replicate 8 1)⟩ armed, _, _, rfl, rfl, rfl, by decide⟩⟩

theorem witness_OtherCommandsKeepMemory :
    (∀ decision k, Instr.speedIntervalExpiry ≠ wordCommand decision k) ∧
      (∀ decision k, Instr.speedIntervalExpiry ≠ accessCommand decision k) ∧
      ∃ t, exec .speedIntervalExpiry armed = .next t :=
  ⟨fun _ k => by cases k <;> simp [wordCommand], fun _ k => by cases k <;> simp [accessCommand], _, rfl⟩

/-! #### Motion unit -/

/-- An encoder position and divisor 3: a residue where a pulse gives an event either way, and one where it gives none. -/
theorem witness_PulsesAndIdleUnitEvents :
    (State.reset.blk.live = false ∧ State.reset.motion.residue + 1 = State.reset.cfg.divisor ∧
      State.reset.motion.residue - 1 = -(State.reset.cfg.divisor : Int)) ∧
    ∃ s : State, s.cfg.divisor = 3 ∧ s.motion.residue + 1 ≠ s.cfg.divisor ∧ s.motion.residue - 1 ≠ -(s.cfg.divisor : Int) :=
  ⟨by decide, armed.setCfg { line with divisor := 3 }, rfl, by decide, by decide⟩

/-- P and H equal, at 0 and at the last position from which H advances. -/
theorem witness_ForwardUnitAdvancesH : ∀ p ∈ [0, 1099511627774], ∃ s : State, s.blk.live = true ∧
    s.motion.residue + 1 = s.cfg.divisor ∧ s.motion.p = s.motion.h ∧ s.motion.p + 1 < Config.positions ∧ s.motion.p = p := by
  intro p hp
  refine ⟨withMotion (fun m => { m with p := p, h := p }) armed, rfl, rfl, rfl, ?_, rfl⟩
  simp at hp
  rcases hp with rfl | rfl <;> decide

/-- P below H; a station unmounted, mounted off and at a repeat boundary, with a count below and at its persistence. -/
theorem witness_ReturnEventKeepsTheTrack : (∃ s : State, s.blk.live = true ∧ s.motion.residue + 1 = s.cfg.divisor ∧
    s.motion.p < s.motion.h ∧ s.motion.p + 1 < Config.positions) ∧
    (armed.blk.stations.station[0].mount.mounted = false ∧
      ∃ b : Blocks, b.live = true ∧ b.stations.station[0].mount = ⟨true, 6400, 1000, 0, 0, 0, 1⟩) ∧
    (∀ p ∈ [(5400, 0), (5399, 6399)], phaseUnits ⟨line, { Motion.reset false false with p := p.1, h := 9000 }⟩ 0
      ⟨true, 6400, 1000, 0, 0, 0, 1⟩ = p.2) ∧
    (∀ n ∈ [0, 1], ∃ st : Station, st.outOfReg = n ∧ st.seen = false ∧ st.mount.persistence = 1) :=
  ⟨⟨withMotion (fun m => { m with h := 1 }) armed, rfl, rfl, by decide, by decide⟩,
   ⟨rfl, armed.blk.modStations fun t => { t with station := Bank.modify t.station 0 fun st =>
     { st with mount := ⟨true, 6400, 1000, 0, 0, 0, 1⟩ } }, rfl, rfl⟩, by decide +kernel,
   fun n _ => ⟨{ Station.reset with outOfReg := n, mount := ⟨true, 6400, 1000, 0, 0, 0, 1⟩ }, rfl, rfl, rfl⟩⟩

/-- Backward events at the backlash allowance and one beyond it; an event discarded at each end. -/
theorem witness_BackwardAndDiscardedUnitEvents :
    (∀ h ∈ [30, 31], ∃ s : State, s.blk.live = true ∧ s.motion.residue - 1 = -(s.cfg.divisor : Int) ∧ 0 < s.motion.p ∧
      s.motion.h - (s.motion.p - 1) = h ∧ s.cfg.backlash = 30) ∧
    (∃ s : State, s.blk.live = true ∧ s.motion.residue + 1 = s.cfg.divisor ∧ s.motion.p + 1 = Config.positions) ∧
    (armed.blk.live = true ∧ armed.motion.residue - 1 = -(armed.cfg.divisor : Int) ∧ armed.motion.p = 0) := by
  refine ⟨?_, ⟨withMotion (fun m => { m with p := 1099511627775, h := 1099511627775 }) armed, rfl, rfl, rfl⟩, rfl, rfl, rfl⟩
  intro h _
  exact ⟨withMotion (fun m => { m with p := 1, h := h }) armed, rfl, rfl, Nat.one_pos, rfl, rfl⟩

/-- A snapshot trigger in each part state, with and without a write in progress. -/
theorem witness_MotionTimersAndSnapshotTriggers :
    (∃ s : State, s.motion.stopTimer = some 2000) ∧
    (armed.blk.restart.part = .armed ∧ Work.snapshot ∉ armed.blk.restart.work ∧
      armed.motion.h + armed.cfg.snapshotDistance < Config.positions) ∧
    (∃ b : Blocks, b.restart.part = .armed ∧ Work.snapshot ∈ b.restart.work) ∧
    (inPart (.arming true)).blk.restart.part = .arming true ∧ (inPart .dormant).blk.live = false :=
  ⟨⟨withMotion (fun m => { m with stopTimer := some 2000 }) armed, rfl⟩, by decide,
   ⟨armed.blk.modRestart fun r => { r with work := [.snapshot] }, rfl, by decide⟩, rfl, rfl⟩

/-! #### Cause set -/

theorem witness_RaiseClaimsAndStopLines :
    (armed.blk.live = true ∧ armed.blk.causes.entry .pasteLow = none) ∧
    working.blk.causes.entry .planBadClose = some ⟨.report, 3, 1⟩ ∧ State.reset.blk.live = false := ⟨⟨rfl, rfl⟩, rfl, rfl⟩

/-- An acknowledge of one kind: named and latched, named and clear, not named; a kind whose condition stands. -/
theorem witness_AcknowledgeClearsNamedKinds :
    CarriesWrite (carryWrite 16440 0xF 1048576 armed) (carried 16440 0xF 1048576) ⟨0xF, 1048576⟩ .status 56 ∧
    (1048576#32 : Word) ≠ 0 ∧ bit 1048576#32 CauseKind.planBadClose.number = true ∧
    bit 1048576#32 CauseKind.pasteLow.number = false ∧ working.blk.causes.entry .planBadClose = some ⟨.report, 3, 1⟩ ∧
    (∃ b : Blocks, standing armed.ctx b .outcomeBacklog = true) ∧
    CarriesWrite (carryWrite 16440 0xF 64 armed) (carried 16440 0xF 64) ⟨0xF, 64⟩ .status 56 ∧
    (64#32 : Word).getLsbD 6 = true ∧ (∃ b : Blocks, (b.causes.entry .ovenVent).isSome = true ∧
      b.oven.zone[0].mode = .vent) ∧
    CauseKind.pasteLow ∉ [CauseKind.trackUncertain, .moduleLost, .trackFull, .cacheFull, .starvedHold, .register,
      .moduleFault, .outcomeBacklog] ∧ moduleScreen 15 = some 15 ∧ moduleZone 16 = some 0 :=
  ⟨carries (by decide) (by decide), by decide, by decide, by decide, rfl,
   ⟨armed.blk.modReport fun r => { r with queue := List.replicate 4 ⟨true, []⟩ }, by decide⟩,
   carries (by decide) (by decide), by decide,
   ⟨raise .ovenVent 0 (modZone 0 (fun r => { r with mode := .vent }) armed.blk), rfl, rfl⟩, by decide, rfl, rfl⟩

theorem witness_UncertaintyFlagsSegmentsHeld :
    (armed.blk.live = true ∧ armed.blk.causes.entry .trackUncertain = none) ∧
    (∃ b : Blocks, ∃ e, b.causes.entry .trackUncertain = some e) ∧ CauseKind.pasteLow ≠ .trackUncertain :=
  ⟨⟨rfl, rfl⟩, ⟨raise .trackUncertain 0 armed.blk, _, rfl⟩, by decide⟩

/-! #### Track unit -/

/-- A context with P and H at a position. -/
def atH (h : Nat) : Ctx := ⟨line, { Motion.reset false false with p := h, h := h }⟩

/-- Blocks of an ARMED part with a change of the track. -/
def tracked (f : Track → Track) : Blocks := armed.blk.modTrack f

/-- The ENTERING segment of the tests: number 1, BLANK, at 0. -/
def first : Segment := { Segment.blank 0 with seq := 1 }

/-- Closed segments behind it, of numbers from 2 on. -/
def closed (n : Nat) : List Segment := (List.range n).map fun i => { Segment.blank 0 with seq := i + 2, length := some 1 }

/-- Edges at the seam length and one below it from the last accepted one; a list of 3 and of 4 entries. -/
theorem witness_SeamEdgesJoinTheList :
    (debounced (atH 2000) (tracked fun t => { t with debounce := some 0 }).track = false ∧
      debounced (atH 1999) (tracked fun t => { t with debounce := some 0 }).track = true) ∧
    (armed.blk.live = true ∧ debounced armed.ctx armed.blk.track = false ∧
      armed.motion.h + armed.cfg.detectorDistance < Config.positions) ∧
    ([⟨7, some 1⟩, ⟨9, none⟩, ⟨9, none⟩] : List PendingSeam).Pairwise (fun a b => a.due ≤ b.due) ∧
    (∀ n ∈ [3, 4], ∃ s : State, s.blk.live = true ∧ debounced s.ctx s.blk.track = false ∧ s.blk.track.seams.length = n) := by
  refine ⟨by decide, by decide, by decide, ?_⟩
  intro n _
  exact ⟨withBlk (fun b => b.modTrack fun t => { t with seams := List.replicate n ⟨9, none⟩ }) armed, rfl, rfl,
    List.length_replicate⟩

/-- The part at a boundary, a seam or a WAITING boundary: `n` closed segments, then the ENTERING one, `first` or another. -/
def atBound (n : Nat) (g : Segment) (bd : Boundary) (seams : List PendingSeam) : Blocks :=
  tracked fun t => { t with segs := closed n ++ [g], seqCounter := 70, boundary := bd, seams := seams }

/-- The conditions that the two boundary statements share, with no older segment and with 54 of them (9 entries free), at
the due end and DEFERRED; with 55 of them there is no room. -/
theorem witness_boundaries : (∀ n ∈ [0, 54, 55], ∀ bd ∈ [Boundary.opened (some 5000), .deferred true, .deferred false],
    let b := atBound n first bd []
    Entering (atH 5000) b (closed n) first ∧ BoundaryAtH (atH 5000) b.track ∧ dueSeam 5000 b.track = none ∧
      (n ≠ 55 → entriesNeeded first ≤ b.track.free) ∧ (n = 55 → b.track.free < entriesNeeded first) ∧
      first.contOwed = none ∧ b.plan.staged = none) := by
  unfold Entering BoundaryAtH
  decide +kernel

/-- An order ready to be admitted, of a kind. -/
def order (k : OrderKind) : StagedOrder := ⟨k, false, false, 3, 5000, 0, 7, 0, .ready, some (0, 1)⟩

/-- A boundary that comes due at an end beyond the head, at one that is not, and DEFERRED. -/
theorem witness_BoundaryWithoutOrderStarves :
    let t (bd : Boundary) := { Track.reset with segs := [first], boundary := bd }
    (t (.opened none)).entering = some first ∧ dueBoundary 9 false (t (.opened (some 9))) = some 9 ∧
      dueBoundary 9 false (t (.opened (some 0))) = some 1 ∧ dueBoundary 9 false (t (.deferred true)) = some 9 ∧
      first.kind = .blank ∧ 0 < ({ line with screenOffset := .replicate 16 1 } : Anchor).screenOffset[15] := by
  decide +kernel

/-- Mount data of a reference screen of repeat 6,400 and origin 1,000 (the numbers of R41). -/
def aligning : MountRecord := ⟨true, 6400, 1000, 0, 0, 0, 1⟩

/-- A mounted reference screen. -/
def withReference (b : Blocks) : Blocks := b.modStations fun t =>
  { t with refScreen := 1, station := Bank.modify t.station 0 fun st => { st with mount := aligning } }

/-- Orders of each kind; of an order with ALIGN, the least end at phase 0: at the length's end, and beyond it. -/
theorem witness_BoundaryAdmitsTheStagedOrder :
    (∀ k ∈ [OrderKind.blankLength, .printLength, .printUntilSeam], (order k).isReady = true ∧
      PlannedEnd armed.blk.stations (order k) 5000 10000 ∧ ∃ b : Blocks, b.plan.staged = some (order k)) ∧
    ∀ p ∈ [(5000, 11800), (6800, 11800)],
      PlannedEnd (withReference armed.blk).stations { order .printLength with align := true } p.1 p.2 := by
  refine ⟨?_, ?_⟩
  · intro k hk
    refine ⟨?_, ?_, armed.blk.modPlan fun p => { p with staged := some (order k) }, rfl⟩ <;> simp at hk <;>
      rcases hk with rfl | rfl | rfl
    · rfl
    · rfl
    · rfl
    · exact fun _ => ⟨by decide, by decide, rfl⟩
    · exact fun _ => ⟨by decide, by decide, rfl⟩
    · exact fun h => absurd rfl h
  · intro p hp _
    have : alignMount (withReference armed.blk).stations = some aligning := by decide +kernel
    simp only [this]
    simp at hp
    rcases hp with rfl | rfl <;>
      refine ⟨by decide, by decide, by decide, by decide, fun e' h h' => ?_⟩ <;> simp [aligning, order] at h h' ⊢ <;> omega

/-- An order in each state that is not ready; a WAITING boundary at H and behind it. -/
theorem witness_boundaries_that_wait :
    (∀ st ∈ [SettingState.fetching, .waitingEntry], ∃ b : Blocks, ∃ o : StagedOrder, b.plan.staged = some o ∧ o.state = st) ∧
    ∀ p ∈ [1, 4999, 5000], Entering (atH 5000) (atBound 0 first (.waiting p) []) (closed 0) first ∧ first.head < p ∧
      p ≤ (atH 5000).motion.h := by
  refine ⟨fun st _ => ⟨armed.blk.modPlan fun p => { p with staged := some { order .printLength with state := st } }, _, rfl,
    rfl⟩, ?_⟩
  unfold Entering
  decide +kernel

/-- A SEAM segment at 0 that carries a continuation owed of a remaining length, and an end. -/
def carrying (remaining : Nat) : Segment :=
  { first with kind := .seam, origin := .seam, plannedEnd := some 5001,
               contOwed := some ⟨7, 8, none, 14000, remaining, true⟩ }

/-- A PRINT segment whose planned end lies the seam length and an amount past 5,000. -/
def cut (beyond : Nat) : Segment :=
  { first with kind := .print, origin := .order, setting := some ⟨4, 0, 1, .held⟩, plannedEnd := some (7000 + beyond) }

/-- A seam over an open PRINT or BLANK, with no due end, with one just beyond it and DEFERRED, with one entry free and
none; with the minimum order length left and one less; over a WAITING boundary; inside a SEAM segment and at its end, its
continuation at and below the minimum once shortened; and at the due end of a segment that ends there. -/
theorem witness_SeamTruncatesTheEnteringSegment :
    let x := atH 5000
    (∀ n ∈ [0, 62, 63], ∀ g ∈ [first, cut 5000, cut 4999],
      ∀ bd ∈ [Boundary.opened none, .opened (some 5001), .deferred true, .waiting 4999, .opened (some 5000)],
      let b := atBound n g bd [⟨5000, none⟩, ⟨5001, none⟩]
      Entering x b (closed n) g ∧ (∀ s ∈ b.track.segs, s.seq ≤ b.track.seqCounter) ∧
        SeamAtH x b.track ⟨5000, none⟩ [⟨5001, none⟩] ∧ (0 < b.track.free ↔ n ≠ 63) ∧ (b.track.free = 0 ↔ n = 63) ∧
        (n = 0 → 2 ≤ b.track.free) ∧ b.plan.staged = none) ∧
    (line.minOrder = 5000 ∧ (cut 0).setting.bind SettingRef.counted = some 0) ∧
    ∀ r ∈ [6999, 7000], ∀ bd ∈ [Boundary.opened (some 5000), .opened (some 5001)],
      Entering x (atBound 0 (carrying r) bd [⟨5000, none⟩]) [] (carrying r) ∧
        (∀ c ∈ (carrying r).contOwed, (Shortened line c line.seamLength).isSome = decide (7000 ≤ r)) := by
  unfold Entering SeamAtH
  decide +kernel

/-- A segment at its retirement position and one below it; references counted and not, with one user and two; a queue with
one place left, and a full one. -/
theorem witness_RetirementHandsTheSegmentOn :
    (∃ n, { first with length := some 10 }.length = some n ∧ 0 + n + line.exitOffset ≤ (atH 1500010).motion.h ∧
      ¬ 0 + n + line.exitOffset ≤ (atH 1500009).motion.h) ∧
    (atBound 3 first (.opened none) []).track.segs.Pairwise (fun g g' => g.seq ≠ g'.seq) ∧
    (first.setting.bind SettingRef.counted = none ∧ (cut 0).setting.bind SettingRef.counted = some 0 ∧
      armed.blk.cache.waiting = none) ∧ (∃ r, (cut 0).setting = some r ∧ r.link ≠ .lost) ∧
    (∀ n ∈ [1, 2], ∃ b : Blocks, b.cache.entries[(0 : Fin 8)].count = n) ∧
    armed.blk.live = true ∧ (∃ b : Blocks, b.report.queue.length = 7) ∧ ∃ b : Blocks, b.report.queue.length = 8 :=
  ⟨⟨10, rfl, by decide, by decide⟩, by decide, by decide, ⟨_, rfl, by decide⟩,
   fun n hn => ⟨armed.blk.modCache fun c => { c with entries := .replicate 8 ⟨.ready, 4, 1, n, 0, none⟩ }, by
     simp at hn; rcases hn with rfl | rfl <;> decide +kernel⟩,
   rfl, ⟨armed.blk.modReport fun r => { r with queue := List.replicate 7 ⟨true, []⟩ }, rfl⟩,
   ⟨armed.blk.modReport fun r => { r with queue := List.replicate 8 ⟨true, []⟩ }, rfl⟩⟩

/-! #### Plan reader and setting cache -/

/-- Closing words at slots 0 and 3; valid, failing the check, zero, partial. -/
theorem witness_closing_words :
    CarriesWrite (carryWrite 4099 0xF (closingWord 5) armed) (carried 4099 0xF (closingWord 5)) ⟨0xF, closingWord 5⟩ .plan 3 ∧
    CarriesWrite (carryWrite 4111 0xF (closingWord 5) armed) (carried 4111 0xF (closingWord 5)) ⟨0xF, closingWord 5⟩ .plan 15 ∧
    CarriesWrite (carryWrite 4099 0xF 1 armed) (carried 4099 0xF 1) ⟨0xF, 1⟩ .plan 3 ∧
    CarriesWrite (carryWrite 4111 0xF 0 armed) (carried 4111 0xF 0) ⟨0xF, 0⟩ .plan 15 ∧
    CarriesWrite (carryWrite 4111 0x7 1 armed) (carried 4111 0x7 1) ⟨0x7, 1⟩ .plan 15 ∧
    (3 % 4 = 3 ∧ 3 / 4 = armed.blk.plan.postIndex) ∧ (15 % 4 = 3 ∧ 15 / 4 ≠ armed.blk.plan.postIndex) ∧
    validClosing (closingWord 5) = true ∧ validClosing 1 = false ∧ armed.blk.live = true :=
  ⟨carries (by decide) (by decide +kernel), carries (by decide) (by decide +kernel), carries (by decide) (by decide +kernel),
   carries (by decide) (by decide +kernel), carries (by decide) (by decide +kernel), by decide, by decide, by decide,
   by decide, rfl⟩

/-- A posted slot and a slot that is not, of a part with one slot posted. -/
theorem witness_ProtectedSlotsDropWrites :
    let b := armed.blk.modPlan fun p => { p with posted := 1 }
    (windowOf armed.ctx b 4097 = (.plan, 1) ∧ planProtected armed.ctx b.plan 0 = true) ∧
    (windowOf armed.ctx b 4100 = (.plan, 4) ∧ planProtected armed.ctx b.plan 1 = false) ∧
    (let p := { Plan.reset with takeIndex := 3, posted := 2 }
     (3 : Nat) < armed.cfg.planSlots ∧ [0, 1, 2, 3].map (planProtected armed.ctx p) = [true, false, false, true]) ∧
    hostWriteWord (write 4097 0xF 1) 0 = some ⟨0xF, 1⟩ ∧
    ∃ s : State, ∃ w : CarriedWord, s.blk.path.carried = some w ∧ w.judged = .dropPlan 0 ∧ s.blk.live = true :=
  ⟨by decide +kernel, by decide +kernel, by decide +kernel, rfl, carry (write 4097 0xF 1) (.dropPlan 0) armed, _, rfl, rfl,
   rfl⟩

/-- Slots of each kind, at the bounds of the length and of the setting number. -/
theorem witness_PlanReadIsValidated :
    (∃ s : State, ∃ a : Access, CarriesAccess s a ∧ a.kind = .planRead ∧ s.blk.plan.take = .reading) ∧
    validClosing (wordAt [0x0000FF01#32, 5000, 0, closingWord 9] 3) = true ∧
    validateOrder 5000 0 [0x00000001#32, 4999, 0, closingWord 9] = .invalid 9 .badLength ∧
    validateOrder 5000 0 [0x0001FF01#32, 5000, 0, closingWord 9] =
      .valid ⟨.printLength, false, false, 511, 5000, 0, 9, 0, .none, none⟩ ∧
    validateOrder 5000 0 [0x0301FF01#32, 5000, 0, closingWord 9] =
      .valid ⟨.printLength, true, true, 511, 5000, 0, 9, 0, .none, none⟩ ∧
    validateOrder 5000 0 [0x00020001#32, 2147483648, 0, closingWord 9] = .invalid 9 .badSettingNumber ∧
    validateOrder 5000 0 [0x00020003#32, 2147483649, 0, closingWord 9] = .invalid 9 .badLength ∧
    validateOrder 5000 0 [0x00000002#32, 0, 0, closingWord 9] =
      .valid ⟨.printUntilSeam, false, false, 0, 0, 0, 9, 0, .none, none⟩ ∧
    validateOrder 5000 0 [0x00000004#32, 5000, 0, closingWord 9] = .invalid 9 .badKind ∧
    validateOrder 5000 0 [0x00000001#32, 5000, 0, 0] = .invalid 0 .badClose :=
  ⟨⟨access ⟨.planRead, 4096, 4, none⟩ (withBlk (fun b => b.modPlan fun p => { p with take := .reading }) armed), _, rfl,
    rfl, rfl⟩, by decide +kernel⟩

/-- A freeing write with each result of a take. -/
theorem witness_FreeingWriteEndsTheTake :
    ∀ r ∈ [TakeResult.valid (order .blankLength), .valid (order .printUntilSeam), .invalid 9 .badLength],
    ∃ s : State, ∃ a : Access, CarriesAccess s a ∧ a.kind = .freeingWrite ∧ s.blk.plan.take = .freeing ∧ s.blk.live = true ∧
      s.blk.plan.result = some r := by
  intro r _
  exact ⟨access ⟨.freeingWrite, 4099, 1, some [0]⟩ (withBlk (fun b => b.modPlan fun p =>
    { p with take := .freeing, result := some r }) armed), _, rfl, rfl, rfl, rfl, rfl⟩

/-- A cache with every entry in a state, of number 4, with a count. -/
def caching (e : EntryState) (count restarts : Nat) : Blocks :=
  armed.blk.modCache fun c => { c with entries := .replicate 8 ⟨e, 4, 1, count, restarts, none⟩ }

/-- A hit, a miss with a free entry, a miss with an unused READY entry, and a miss with none. -/
theorem witness_LookupHitsFetchesOrWaits :
    armed.blk.live = true ∧ (caching .ready 1 0).cache.current 4 = some 0 ∧
    (armed.blk.cache.current 4 = none ∧ armed.blk.cache.choose = some 0) ∧
    ((caching .ready 0 0).cache.current 5 = none ∧ (caching .ready 0 0).cache.choose = some 0) ∧
    ((caching .ready 1 0).cache.current 5 = none ∧ (caching .ready 1 0).cache.choose = none) ∧
    ((∀ e : Fin 8, (caching .ready 0 0).cache.entries[e].state ≠ .free) ∧
      (caching .ready 0 0).cache.useOrder = [] ++ 0 :: [1, 2, 3, 4, 5, 6, 7] ∧
      (caching .ready 0 0).cache.entries[(0 : Fin 8)].count = 0) := by decide +kernel

/-- The record of setting 0: no screen engaged, cured at 160 degrees for 60 s, no cue. -/
def settingWords : List Word :=
  [closingWord 0] ++ List.replicate 17 0 ++ [0x02580640#32, 0x025807D0#32] ++ List.replicate 36 0

/-- A fetch with its first words, carried to its last burst, and the verdict on its record. -/
def fetching (ws : List Word) : State :=
  access ⟨.settingRead, 65592, 8, none⟩ (withBlk (fun b => b.modCache fun c =>
    { c.beginFetch 0 0 1 with words := ws }) armed)

theorem witness_FetchBurstsEndReadyOrFree :
    (CarriesAccess (fetching []) ⟨.settingRead, 65592, 8, none⟩ ∧ (fetching []).blk.cache.fetchQueue = [0] ∧
      (fetching settingWords).blk.cache.fetchQueue = [0]) ∧
    (fetching []).blk.cache.words.length + 8 < 64 ∧ 64 ≤ (fetching settingWords).blk.cache.words.length + 8 ∧
    (fetching settingWords).blk.cache.waiting = none ∧
    (∃ v, validateSetting 6 4 armed.blk.stations.station 0 (settingWords ++ List.replicate 8 0) = .ok v) ∧
    validateSetting 6 4 armed.blk.stations.station 0 (List.replicate 64 0) = .error (.validity, none) :=
  ⟨⟨rfl, rfl, rfl⟩, by decide, by decide, rfl, ⟨_, rfl⟩, by decide +kernel⟩

/-- A write into record 4, met by a READY entry with and without users, by a fetch at its last restart and past it, with
and without a staged order that claims it, and by none. -/
theorem witness_SettingsWritesReachTheCache :
    (∀ b ∈ [caching .ready 1 0, caching .ready 0 0, caching .fetching 1 2, caching .fetching 1 3, armed.blk],
      windowOf armed.ctx b (wordAddr ((BitVec.ofNat 22 65800).toNat + 0)) = (.settings, 264)) ∧ 264 / 64 = 4 ∧
    ((caching .ready 1 0).cache.current 4 = some 0 ∧ (caching .ready 1 0).cache.entries[0].state = .ready) ∧
    ((caching .fetching 1 2).cache.current 4 = some 0 ∧ (caching .fetching 1 2).cache.entries[0].state = .fetching ∧
      (caching .fetching 1 2).cache.entries[0].restarts < 3) ∧
    ((caching .fetching 1 3).cache.current 4 = some 0 ∧ (caching .fetching 1 3).cache.entries[0].state = .fetching ∧
      3 ≤ (caching .fetching 1 3).cache.entries[0].restarts ∧ (caching .fetching 1 3).cache.waiting = none ∧
      (caching .fetching 1 3).track.segs = [] ∧ (caching .fetching 1 3).plan.staged = none ∧
      (∀ q, (caching .fetching 1 3).track.boundary ≠ .waiting q) ∧
      ({ order .printLength with state := .fetching } : StagedOrder).ref.map (·.1) = some 0) ∧
    armed.blk.cache.current 4 = none :=
  ⟨by decide +kernel, by decide, by decide +kernel, by decide +kernel,
   ⟨by decide +kernel, by decide +kernel, by decide +kernel, rfl, rfl, rfl, nofun, rfl⟩, by decide +kernel⟩

/-! #### Cues -/

/-- A pending cue of segment 1, due at a position. -/
def pendingAt (due : Nat) : PendingCue := ⟨due, ⟨.mark, 0, false, 0, 1⟩, 1, false, 1⟩

/-- Queues of 63 and 64 cues beyond H; a due cue at and below its segment's retirement position, and of an open one. -/
theorem witness_CuesQueueAndFire :
    (∀ n ∈ [63, 64], ∃ b : Blocks, b.live = true ∧ (∀ p ∈ b.cues.queue, (atH 5000).motion.h < p.due) ∧
      b.cues.queue.length = n) ∧
    (∀ g ∈ [first, { first with length := some 10 }], ∃ b : Blocks, b.track.find 1 = some g) ∧
    (first.head + 10 + line.exitOffset ≤ (pendingAt 1500010).due ∧
      (pendingAt 1500009).due < first.head + 10 + line.exitOffset) ∧
    (coordinate (atH 5000).motion.h line.screenOffset[0] = some 5000 ∧
      (tracked fun t => { t with segs := [first] }).track.segmentAt 5000 = some first ∧
      (withReference armed.blk).stations.station[0].mount.mounted = true ∧
      armed.blk.stations.station[15].mount.mounted = false ∧ CueAction.lift ∈ [.lift, .lower, .pasteHold, .pasteResume]) ∧
    ([pendingAt 4999, pendingAt 5000, pendingAt 5001].Pairwise (fun a b => a.due ≤ b.due) ∧
      duePosition line 5000 ⟨.mark, 0, false, -1500000, 1⟩ = 5000 ∧ duePosition line 5000 ⟨.lift, 16, false, 1, 0⟩ = 5001 ∧
      duePosition line 5000 ⟨.zoneSet, 8, false, 0, 0⟩ = 5000) := by
  refine ⟨?_, ?_, by decide, by decide +kernel, by decide +kernel⟩
  · intro n _
    refine ⟨armed.blk.modCues fun q => { q with queue := List.replicate n (pendingAt 5001) }, rfl, ?_, List.length_replicate⟩
    intro p hp
    rw [List.eq_of_mem_replicate hp]
    decide
  · intro g hg
    refine ⟨tracked fun t => { t with segs := [g] }, ?_⟩
    simp at hg
    rcases hg with rfl | rfl <;> rfl

/-! #### Stations and oven -/

/-- A change of station 1. -/
def withStation (f : Station → Station) (s : State) : State :=
  withBlk (fun b => b.modStations fun t => { t with station := Bank.modify t.station 0 f }) s

/-- Words of the mount window: partial, the closing word's zero, a word of a record, a shared item; trim words of the
first and the last screen, in range and out of it, of a mounted screen and of one that is not. -/
theorem witness_MountWritesAndTrims :
    CarriesWrite (carryWrite 8195 0x7 1 armed) (carried 8195 0x7 1) ⟨0x7, 1⟩ .mount 3 ∧
    CarriesWrite (carryWrite 8287 0xF 0 armed) (carried 8287 0xF 0) ⟨0xF, 0⟩ .mount 95 ∧
    CarriesWrite (carryWrite 8192 0xF 1 armed) (carried 8192 0xF 1) ⟨0xF, 1⟩ .mount 0 ∧
    CarriesWrite (carryWrite 8259 0xF 1 armed) (carried 8259 0xF 1) ⟨0xF, 1⟩ .mount 67 ∧
    CarriesWrite (carryWrite 8195 0xF 0x83E807D0 armed) (carried 8195 0xF 0x83E807D0) ⟨0xF, 0x83E807D0⟩ .mount 3 ∧
    CarriesWrite (carryWrite 8255 0xF 0x03E907D1 armed) (carried 8255 0xF 0x03E907D1) ⟨0xF, 0x03E907D1⟩ .mount 63 ∧
    ((0x83E807D0#32).extractLsb' 0 16).toInt = 2000 ∧ ((0x83E807D0#32).extractLsb' 16 11).toInt = 1000 ∧
    (0x83E807D0#32).getLsbD 31 = true ∧ (0x03E807D0#32).getLsbD 31 = false ∧
    ((0x03E907D1#32).extractLsb' 0 16).toInt = 2001 ∧ ((0x03E907D1#32).extractLsb' 16 11).toInt = 1001 ∧
    armed.blk.stations.station[0].mount.mounted = false ∧ ∃ s : State, s.blk.stations.station[0].mount.mounted = true :=
  ⟨carries (by decide) (by decide +kernel), carries (by decide) (by decide +kernel), carries (by decide) (by decide +kernel),
   carries (by decide) (by decide +kernel), carries (by decide) (by decide +kernel), carries (by decide) (by decide +kernel),
   by decide, by decide, by decide, by decide, by decide, by decide, rfl,
   withStation (fun t => { t with mount := { t.mount with mounted := true } }) armed, rfl⟩

/-- Remount requests: a bad check, a moving line, a refused image and an accepted one. -/
theorem witness_RemountsAreJudged :
    CarriesWrite (carryWrite 8287 0xF 1 armed) (carried 8287 0xF 1) ⟨0xF, 1⟩ .mount 95 ∧
    CarriesWrite (carryWrite 8287 0xF (closingWord 7) armed) (carried 8287 0xF (closingWord 7)) ⟨0xF, closingWord 7⟩
      .mount 95 ∧
    validClosing 1 = false ∧ validClosing (closingWord 7) = true ∧ MotionState.advancing ≠ .halted ∧
    (∃ d n, remountFault armed.ctx (closingWord 7) { armed.blk.stations with
      image := armed.blk.stations.image.set 0 1 } = some (d, n)) ∧
    remountFault armed.ctx (closingWord 7) { armed.blk.stations with
      image := (armed.blk.stations.image.set 64 0x000101F4).set 95 (closingWord 7) } = none ∧
    (let image := (((armed.blk.stations.image.set 0 0x511).set 1 0x03E81900).set 64 0x000101F4).set 95 (closingWord 7)
     remountFault armed.ctx (closingWord 7) { armed.blk.stations with image := image } = none ∧
      mountRecord image.toList 0 = ⟨true, 6400, 1000, 0, 0, 5, 1⟩) :=
  ⟨carries (by decide) (by decide +kernel), carries (by decide) (by decide +kernel), by decide, by decide, by decide,
   ⟨.range, 1, by decide +kernel⟩, by decide +kernel, by decide +kernel⟩

/-- R100: a remount of a mounted screen leaves the phase data of the link cycle in progress; the next cycle takes the new
ones. A newly mounted screen has its own at once. -/
theorem test_phase_data_wait_for_the_cycle : ∀ mounted ∈ [true, false],
    let image := (((armed.blk.stations.image.set 0 0x11).set 1 0x03E81900).set 64 0x000101F4).set 95 (closingWord 7)
    let b := (withStation (fun t => { t with mount := ⟨mounted, 5000, 0, 0, 0, 0, 1⟩ }) armed).blk
    let b' := acceptRemount armed.ctx 7 ((b.modField fun f => { f with phase := f.phase.set 0 ⟨5000, 0⟩ }).modStations
      fun t => { t with image := image })
    b'.field.phase[(0 : Fin 16)] = (if mounted then ⟨5000, 0⟩ else ⟨6400, 1000⟩) ∧
      (startCycle armed.ctx b').field.phase[(0 : Fin 16)] = ⟨6400, 1000⟩ := by decide +kernel

/-- A setting that engages screen 1 alone. -/
def setting : Setting :=
  ⟨1, .replicate 16 400, .replicate 8 1600, .replicate 8 3, 1600, 600, 2000, 600, []⟩

/-- A cache that holds it in entry 0. -/
def engaging : Cache :=
  { Cache.reset with entries := Cache.reset.entries.set 0 ⟨.ready, 4, 1, 1, 0, some setting⟩ }

/-- Modules of the first and last screen; a station that holds a segment with that setting, without one, or none. -/
theorem witness_PasteRateFollowsTheSegment :
    (moduleScreen 0 = some 0 ∧ moduleScreen 15 = some 15) ∧
    (segSetting engaging { first with kind := .print, setting := some ⟨4, 0, 1, .held⟩ } = some setting ∧ setting.engages 0 = true ∧
      setting.engages 1 = false) ∧
    segSetting engaging first = none ∧ armed.blk.stations.station[0].lift ≠ .engaged ∧
    (∀ q, armed.blk.stations.station[0].holding ≠ .segment q) ∧
    ∃ b : Blocks, b.stations.station[0].holding = .segment 1 ∧ b.stations.station[0].lift = .engaged ∧
      b.stations.station[0].pasteHold = none ∧ b.track.find 1 = none :=
  ⟨by decide, ⟨by decide, by decide, by decide⟩, by decide, by decide, nofun,
   (withStation (fun t => { t with holding := .segment 1, lift := .engaged }) armed).blk, rfl, rfl, rfl, rfl⟩

/-- A part at H = 5,000 whose station 1 holds segment 1, PRINT with that setting, in a lift state; segment 2 is a SEAM
that ENTERS there. -/
def printing (l : LiftState) : Blocks :=
  (withStation (fun t => { t with
    holding := .segment 1, lift := l, liftTimer := some 500, mount := aligning, wanted := 3, engaged := 1, override := some 1 })
    (withBlk (fun b => (b.setCache engaging).modTrack fun t => { t with
      segs := [{ first with kind := .print, setting := some ⟨4, 0, 1, .held⟩, length := some 5000 },
        { Segment.blank 5000 with seq := 2, kind := .seam }], boundary := .opened (some 7000) }) armed)).blk

/-- The same with no LIFT override, its machine ENGAGED. -/
def uncovered : Blocks := modStation 0 (fun st => { st with override := none }) (printing .engaged)

/-- A boundary with a seam head under a machine that is not LIFTED; the holding kept; fabric to print and fabric under a
seam span; each lift state; a timer that runs. -/
theorem witness_StationsFollowTheTrackAndTheirLifts :
    let x := atH 5000
    (∀ l ∈ [LiftState.lifted, .lowering, .engaged, .lifting, .fault .start], (printing l).live = true ∧
      (printing l).stations.station[0].lift = l ∧ (printing l).stations.station[0].holding = .segment 1) ∧
    ((printing .engaged).track.holdingAt (coordinate x.motion.h x.cfg.screenOffset[0]) = .segment 2 ∧
      seamHeadAt (refreshStation x (printing .engaged) 0).track 5000 ≠ []) ∧
    (printing .engaged).track.holdingAt (coordinate 4999 x.cfg.screenOffset[0]) = .segment 1 ∧
    (printsHere (atH 4999) uncovered 0 = true ∧ wantOf (atH 4999) uncovered 0 = uncovered.stations.station[0].want ∧
      wantOf (atH 4999) (modModule 0 (fun m => { m with online := true }) uncovered) 0 = .down) ∧
    printsHere (atH 5000) (printing .engaged) 0 = false ∧
    (∀ l ∈ [LiftState.lowering, .lifting], (printing l).stations.station[0].liftTimer = some 500) := by decide +kernel

/-- R90, R91, R103: over fabric whose want would be DOWN, a paste cue and a LOWER with no override leave a LIFTED screen as
it is; a LOWER that clears an override lowers it. -/
theorem test_want_at_a_screen_cue :
    let b := modModule 0 (fun m => { m with online := true }) (printing .lifted)
    let lift (override : Option Nat) (a : CueAction) : LiftState :=
      (fireScreenCue (atH 4999) (modStation 0 (fun st => { st with override := override }) b) 0 a 1).stations.station[0].lift
    (∀ a ∈ [CueAction.lower, .pasteHold, .pasteResume], lift none a = .lifted) ∧
    lift (some 1) .lower = .lowering := by decide +kernel

/-- R103: over fabric whose want would be DOWN, a retirement has a LIFTED screen evaluate its want where an ABSORBED seam
leaves with the segment, and not elsewhere. -/
theorem test_want_at_a_retirement :
    let b := modStation 0 (fun st => { st with override := none })
      (modModule 0 (fun m => { m with online := true }) (printing .lifted))
    let lift (absorbed : List PendingSeam) : LiftState :=
      (retire (atH 4999) (b.modTrack fun t => { t with seams := absorbed }) { first with seq := 9 }).stations.station[0].lift
    lift [] = .lifted ∧ lift [⟨90000, some 1⟩] = .lifted ∧ lift [⟨90000, some 9⟩] = .lowering := by decide +kernel

/-- R85, R94: a rebuild batch inserts the cues in list order, a TAIL cue before the HEAD cue listed after it. -/
theorem test_rebuild_in_list_order :
    let listed := { setting with cues := [⟨.mark, 0, true, 0, 1⟩, ⟨.mark, 0, false, 0, 2⟩] }
    let g := { first with kind := .print, origin := .order, setting := some ⟨4, 0, 1, .held⟩, length := some 5000 }
    let b := (tracked fun t => { t with segs := [g] }).setCache
      { Cache.reset with entries := Cache.reset.entries.set 0 ⟨.ready, 4, 1, 1, 0, some listed⟩ }
    (rebuildBatch (atH 100) b g).cues.queue.map (fun p => (p.cue.value, p.number)) = [(2, 2), (1, 1)] := by decide +kernel

/-- R38, R88, R94, log 24: a segment that closes at a seam past its planned end was truncated, unless a seam that it
absorbed while OPEN moved its due end there; one absorbed past its due end tells that it was DEFERRED. -/
theorem test_truncation_read_back :
    ∀ p ∈ [([], 5000, true), ([⟨3000, some 1⟩], 5000, false), ([⟨3000, some 2⟩], 5000, true),
      ([⟨4000, some 1⟩], 6000, false), ([⟨4001, some 1⟩], 6001, true), ([⟨3000, some 1⟩, ⟨5000, some 1⟩], 7000, false)],
    let g := { first with kind := .print, length := some p.2.1, plannedEnd := some 4000 }
    let d := { decodeSnapshot [] with segs := [g, { Segment.blank p.2.1 with seq := 2, kind := .seam }], seams := p.1 }
    endsTruncated line d g = p.2.2 := by decide +kernel

/-- R157, R199: a queued record read back is the record written, but for its mark positions; a kind byte of neither kind
gives a rejection record. -/
theorem test_restored_records :
    (∀ r ∈ [segmentRecord { first with tag := some 7 }, rejectionRecord 3 9 2 .badKind],
      (restoredRecord ((r.words.drop 1).take 16)).words = r.words) ∧
    ∀ kind ∈ [0, 3, 255], (restoredRecord (List.replicate 14 0 ++ [pack [(24, 8, kind)], 0])).words.head? =
      some 0x02000000#32 := by decide +kernel

/-- R132: a segment whose first UNDERCURED probe has been removed raises nothing at its next. -/
theorem test_undercure_raised_once : ∀ had ∈ [true, false],
    let g := { first with kind := .print, probes := [⟨0, .zone 0, 0, 0, 0, .pending, false⟩], gainedUnder := had }
    ((giveVerdict 4 1 0 .undercured (tracked fun t => { t with segs := [g] })).causes.entry .undercure).isSome = !had := by
  decide +kernel

/-- R31, R101: a boundary that becomes WAITING behind H leaves the station beyond it in the GAP. -/
theorem test_waiting_gap :
    let b := ((tracked fun t => { t with segs := [first], boundary := .opened (some 5000) }).modPlan fun p =>
      { p with staged := some { order .printLength with state := .fetching } }).modStations fun t =>
        { t with station := Bank.modify t.station 0 fun st => { st with holding := .segment 1 } }
    (trackAdvance (atH 6000) b).track.boundary = .waiting 5000 ∧
      (trackAdvance (atH 6000) b).stations.station[0].holding = .gap := by decide +kernel

/-- The first and last zone's modules, in each mode. -/
theorem witness_ZoneFramesFollowTheMode : (moduleZone 16 = some 0 ∧ moduleZone 23 = some 7) ∧
    ∀ m ∈ [ZoneMode.run, .standby, .vent], ∃ b : Blocks, b.oven.zone[0].mode = m := by
  refine ⟨by decide, ?_⟩
  intro m _
  exact ⟨armed.blk.modOven fun o => { o with zone := Bank.modify o.zone 0 fun r => { r with mode := m } }, rfl⟩

/-- A probe in zone 1. -/
def probe : Probe := ⟨0, .zone 0, 0, 0, 0, .pending, false⟩

/-- An oven with a probe in it, its timer running, at a dwell stage and count. -/
def dwelling (stage count : Nat) : State :=
  withBlk (fun b => (b.modTrack fun t => { t with segs := [{ first with probes := [probe] }] }).modOven fun o =>
    { o with timerRunning := true, dwellStage := stage, dwellCount := count }) armed

/-- Credits: the line advancing, a probe outside and in a zone, a module ONLINE and LOST. Places: the probes of an
ENTERING PRINT segment due and not; a closure at and above seven spacings; a probe past the oven exit. -/
theorem witness_ProbesAreMadeCreditedAndJudged :
    (∃ s : State, s.blk.oven.timerRunning = true ∧ s.motion.state = .advancing) ∧
    (∀ z, { probe with place := Place.before }.place ≠ .zone z) ∧ probe.place = .zone 0 ∧
    (∃ f : FieldLine, f.module[16].online = true) ∧ armed.blk.field.module[16].online = false ∧
    (let g := { first with kind := .print, probes := [{ probe with place := .before }] }
      let b := tracked fun t => { t with segs := [g] }
      b.track.entering = some g ∧ b.track.find 1 = some g ∧ (∀ p ∈ g.probes, p.rel ≠ 20000) ∧ g.probes.length < 7 ∧
        g.head + 20000 < (atH 20001).motion.h ∧ ¬ g.head + 20000 < (atH 20000).motion.h ∧
        g.probes.Pairwise (·.rel < ·.rel) ∧ g.probes.find? (·.rel == 0) = some { probe with place := .before } ∧
        placeOf (atH 700000) (g.head + 0) = .after ∧ placeOf (atH 699999) (g.head + 0) ≠ .after ∧
        (g.gainedUnder = false ∧ g.gainedOver = false) ∧ judgeProbe none probe = .unverified ∧
        judgeProbe (some setting) probe = .undercured ∧ judgeProbe (some setting) { probe with scorch := 601 } = .overcured) :=
  ⟨⟨withMotion (fun m => { m with state := .advancing }) (dwelling 0 0), rfl, rfl⟩, nofun, rfl,
   ⟨{ FieldLine.reset with module := FieldLine.reset.module.set 16 { Module.reset with online := true } }, rfl⟩, rfl, by
     decide +kernel⟩

/-- The dwell count one below, and at, each stage's time. -/
theorem witness_dwell_monitor : ∀ p ∈ [(0, 448), (0, 449), (1, 2399)],
    (dwelling p.1 p.2).blk.live = true ∧ (dwelling p.1 p.2).blk.oven.timerRunning = true ∧
      (dwelling p.1 p.2).motion.state ≠ .advancing ∧ 0 < probesInZones (dwelling p.1 p.2).blk.track ∧
      (dwelling p.1 p.2).blk.oven.dwellStage < 2 ∧ 10 * line.stage1 = 450 ∧ 10 * line.stage2 = 2400 := by
  decide +kernel

/-- A zone at a segment with a setting, at one without, at one last recorded, and before the track. -/
theorem witness_ZonesFollowTheTrackAndTheDwellMonitor :
    let x := atH 5000
    (printing .lifted).track.holdingAt (coordinate 4999 x.cfg.zoneEntry[0]) = .segment 1 ∧
    (printing .lifted).track.holdingAt (coordinate 5000 x.cfg.zoneEntry[0]) = .segment 2 ∧
    armed.blk.track.holdingAt (coordinate 5000 x.cfg.zoneEntry[0]) = .before ∧
    ((printing .lifted).oven.zone[0].recorded ≠ some 1 ∧
      ∃ g v, (printing .lifted).track.find 1 = some g ∧ segSetting (printing .lifted).cache g = some v) ∧
    (∃ b : Blocks, b.oven.zone[0].recorded = some 1) ∧
    (∃ g, (printing .lifted).track.find 2 = some g ∧ segSetting (printing .lifted).cache g = none) :=
  ⟨by decide +kernel, by decide +kernel, by decide +kernel, ⟨by decide +kernel, _, _, rfl, rfl⟩,
   ⟨modZone 0 (fun r => { r with recorded := some 1 }) armed.blk, rfl⟩, _, rfl, rfl⟩

/-! #### Field line -/

/-- An exchange with a module in a phase. -/
def exchanging (a : Fin 24) (p : ExchangePhase) (driven : Bool) : State :=
  withBlk (fun b => b.modField fun f => { f with
    exchange := some ⟨a, p, false⟩, lineDriven := driven, cycleTimer := some 4, replyTimer := some 100 }) armed

/-- A cycle timer that runs out idle, with modules configured and with none, and in an exchange; each phase. -/
theorem witness_CyclesAndExchangesRun :
    (∃ s : State, s.blk.field.cycleTimer = some 4 ∧ s.blk.field.exchange = none ∧
      configured s.ctx s.blk 16 = true ∧ ∀ a' : Fin 24, a' < 16 → configured s.ctx s.blk a' = false) ∧
    (∃ s : State, s.blk.field.cycleTimer = some 4 ∧ s.blk.field.exchange = none ∧
      ∀ a, configured s.ctx s.blk a = false) ∧
    (exchanging 23 .quiet false).blk.field.exchange = some ⟨23, .quiet, false⟩ ∧
    ((exchanging 0 .sending true).blk.field.exchange = some ⟨0, .sending, false⟩ ∧
      (exchanging 0 .sending true).blk.field.lineDriven = true) ∧
    (exchanging 0 .awaiting false).blk.field.exchange = some ⟨0, .awaiting, false⟩ ∧
    (∀ p ∈ [(2000 : Int), -2000], ∃ b : Blocks, moduleScreen 0 = some 0 ∧ b.stations.station[(0 : Fin 16)].mount.mounted = true ∧
      0 < b.field.phase[(0 : Fin 16)].repeatLen ∧ b.stations.station[(0 : Fin 16)].trim.phase = p ∧
      -(10 * b.field.phase[(0 : Fin 16)].repeatLen : Int) ≤ p ∧ p ≤ 10 * b.field.phase[(0 : Fin 16)].repeatLen) :=
  ⟨⟨withBlk (fun b => b.modField fun f => { f with cycleTimer := some 4 }) armed, rfl, rfl, by decide +kernel,
     by decide +kernel⟩,
   ⟨(withBlk (fun b => b.modField fun f => { f with cycleTimer := some 4 }) armed).setCfg { line with zoneCount := 0 }, rfl,
     rfl, by decide +kernel⟩, rfl, ⟨rfl, rfl⟩, rfl, fun p hp =>
   ⟨startCycle armed.ctx (withStation (fun t => { t with mount := aligning, trim := ⟨p, 0⟩ }) armed).blk, rfl, rfl, by
     simp at hp; rcases hp with rfl | rfl <;> decide +kernel⟩⟩

/-- A module at each count where a miss or a good reply changes its state, and one below. -/
theorem witness_MissesLoseModules :
    (exchanging 0 .quiet false).blk.field.exchange = some ⟨0, .quiet, false⟩ ∧
    (exchanging 23 .awaiting false).blk.field.exchange = some ⟨23, .awaiting, false⟩ ∧
    (∀ k ∈ [1, 2], ∃ m : Module, m.online = true ∧ m.misses = k) ∧
    (∀ k ∈ [0, 1], ∃ m : Module, m.online = false ∧ m.goods = k) ∧
    (configured armed.ctx (printing .engaged) 0 = true ∧ configured armed.ctx armed.blk 19 = true ∧
      configured armed.ctx armed.blk 0 = false ∧ configured armed.ctx armed.blk 20 = false) ∧
    ({ Module.reset with online := true, misses := 2 } : Module).missed.online = false ∧ moduleScreen 15 = some 15 ∧
    moduleZone 16 = some 0 :=
  ⟨rfl, rfl, fun k _ => ⟨{ Module.reset with online := true, misses := k }, rfl, rfl⟩,
   fun k _ => ⟨{ Module.reset with goods := k }, rfl, rfl⟩, by decide +kernel, rfl, rfl, rfl⟩

/-- A frame while the part drives the line, with no exchange, and in the exchange's reply, of a screen and of a zone. -/
theorem witness_FramesAreJudgedOrLate :
    armed.blk.live = true ∧ (exchanging 0 .sending true).blk.field.lineDriven = true ∧
    (armed.blk.field.lineDriven = false ∧ armed.blk.field.exchange = none) ∧
    (exchanging 0 .receiving false).blk.field.lineDriven = false ∧
    (exchanging 0 .receiving false).blk.field.exchange = some ⟨0, .receiving, false⟩ ∧
    (∃ r, judgeReply 1 true false false [1, 1, 0, 0, 0, 0, crc8 [1, 1, 0, 0, 0, 0]] = .ok r) ∧
    judgeReply 1 true false false [1] = .error .length ∧
    (let reply (b2 b3 b4 b5 b6 : Byte) := [1, b2, b3, b4, b5, b6, crc8 [1, b2, b3, b4, b5, b6]]
     judgeReply 1 true true false (reply 0x0E 0xFF 0xFE 0 99) = .ok (.screen .moving (-2) true, 99) ∧
      judgeReply 1 true false false (reply 0x08 0 0 0 0) = .error .content ∧
      judgeReply 1 true false false (reply 3 0 0 0 0) = .error .content ∧
      judgeReply 1 false false false (reply 0 9 196 4 0) = .ok (.zone 2500 false, 1024) ∧
      judgeReply 1 false false false (reply 0 9 197 0 0) = .error .content ∧
      judgeReply 2 true false false (reply 0 0 0 0 0) = .error .address ∧
      judgeReply 1 true false true (reply 0 0 0 0 0) = .error .framing) :=
  ⟨rfl, rfl, ⟨rfl, rfl⟩, rfl, rfl, ⟨(.screen .down 0 false, 0), by decide +kernel⟩, rfl, by decide +kernel⟩

/-- R152, R153, R154: the end of an exchange with a module that a remount has unmounted meanwhile takes the fault bit and
the item as any other does, and toggles the selector (log 29); a remount after it sets the entry anew. -/
theorem test_reply_of_an_unmounted_screen :
    let bytes := [1, 4, 0, 0, 0, 99]
    (after (.frameClosed (bytes ++ [crc8 bytes]) false 9) (exchanging 0 .receiving false)).map (fun t =>
      let m := t.blk.field.module[(0 : Fin 24)]
      (m.faultMarker, m.item0, m.selector, m.online, (t.blk.causes.entry .moduleFault).isSome,
        (t.blk.causes.entry .pasteLow).isSome)) = some (true, some 99, true, false, true, true) := by decide +kernel

/-! #### Report unit and ports -/

/-- A record write before its last burst and at its word 0, with and without a stalled read. -/
theorem witness_RecordWritesFillTheRing :
    (∃ s : State, CarriesAccess s ⟨.recordBurst, 12289, 8, some (List.replicate 8 1)⟩ ∧
      s.blk.report.recordWrite = some [⟨1, []⟩, ⟨0, []⟩]) ∧
    (∃ s : State, CarriesAccess s ⟨.recordWord0, 12288, 1, some [1]⟩ ∧ s.blk.report.queue = [⟨true, []⟩] ∧
      ∀ x, s.blk.path.host ≠ .stalled x) ∧
    ∃ s : State, CarriesAccess s ⟨.recordWord0, 12288, 1, some [1]⟩ ∧ s.blk.report.queue = [⟨false, []⟩] ∧
      s.blk.path.host = .stalled (.read 12288 1) :=
  ⟨⟨access _ (withBlk (fun b => b.modReport fun r => { r with recordWrite := some [⟨1, []⟩, ⟨0, []⟩] }) armed), rfl, rfl⟩,
   ⟨access _ (withBlk (fun b => b.modReport fun r => { r with queue := [⟨true, []⟩] }) armed), rfl, rfl, nofun⟩,
   ⟨access _ (withBlk (fun b => (b.modReport fun r => { r with queue := [⟨false, []⟩] }).modPath fun p =>
     { p with host := .stalled (.read 12288 1) }) armed), rfl, rfl, rfl⟩⟩

/-- The first and the last slot freed; pages 0 and 12; the status timer; a burst of a rewrite, and its last. -/
theorem witness_SlotsAreFreedAndRewritesOwed :
    CarriesWrite (carryWrite 12288 0xF 0 armed) (carried 12288 0xF 0) ⟨0xF, 0⟩ .outcome (32 * 0) ∧
    CarriesWrite (carryWrite 12512 0xF 0 armed) (carried 12512 0xF 0) ⟨0xF, 0⟩ .outcome (32 * 7) ∧
    (∃ b : Blocks, b.report.full.getD 7 false = true ∧ ∀ n id, b.restart.mapNext = some (n, id) → 7 < n) ∧
    CarriesWrite (carryWrite 16441 0xF 12 armed) (carried 16441 0xF 12) ⟨0xF, 12⟩ .status 57 ∧
    CarriesWrite (carryWrite 16441 0xF 0 armed) (carried 16441 0xF 0) ⟨0xF, 0⟩ .status 57 ∧
    (∃ s : State, s.blk.report.statusTimer = some 100) ∧
    ∀ rest : List Burst, ∃ s : State, CarriesAccess s ⟨.statusBurst, 16384, 8, some []⟩ ∧
      s.blk.report.rewrite = some (⟨0, []⟩ :: rest) :=
  ⟨carries (by decide) (by decide +kernel), carries (by decide) (by decide +kernel),
   ⟨armed.blk.modReport fun r => { r with full := .replicate 8 true }, rfl, nofun⟩, carries (by decide) (by decide +kernel),
   carries (by decide) (by decide +kernel),
   ⟨withBlk (fun b => b.modReport fun r => { r with statusTimer := some 100 }) armed, rfl⟩,
   fun rest => ⟨access _ (withBlk (fun b => b.modReport fun r => { r with rewrite := some (⟨0, []⟩ :: rest) }) armed), rfl,
     rfl⟩⟩

/-- Accesses of 0, 1, 8 and 9 words; a read that stalls and one that does not; a port that is not empty. -/
theorem witness_HostPortTakesAnAccess :
    (HostAccess.read 0 0).count = 0 ∧ 8 < (HostAccess.read 0 9).count ∧
    ((HostAccess.read 12288 1).wf = true ∧ (HostAccess.read 12288 8).wf = true ∧ armed.blk.path.host = .empty) ∧
    (stalls armed.ctx armed.blk (.read 12288 1) = true ∧ stalls armed.ctx armed.blk (.read 12289 1) = false) ∧
    (windowOf armed.ctx armed.blk (12288#22).toNat = (.outcome, 32 * 0) ∧
      windowOf armed.ctx armed.blk (12512#22).toNat = (.outcome, 32 * 7) ∧ armed.blk.restart.mapNext = none) ∧
    (carry (.read 0 1) .pass armed).blk.path.host ≠ .empty ∧
    (let word (a : HostAccess) (i : Nat) := windowOf armed.ctx armed.blk (hostWordAt a i)
     word (.read 16384 8) 0 = (.status, 0) ∧ (∀ i < 8, word (.read 16384 8) i ≠ (.status, 63)) ∧
      word (.read 16440 8) 7 = (.status, 63) ∧ (word (.read 16441 8) 7).1 ≠ .status ∧
      ∃ b : Blocks, b.path.freeze = false ∧ b.report.rewrite.isSome = true ∧ lastBurstCarried b = false) ∧
    ∃ s : State, s.blk.report.stallTimer = some 100 ∧ s.blk.path.host = .stalled (.read 12288 1) :=
  ⟨rfl, by decide, by decide, by decide +kernel, by decide +kernel, by decide,
   ⟨by decide +kernel, by decide +kernel, by decide +kernel, by decide +kernel,
     armed.blk.modReport fun r => { r with rewrite := some [⟨0, []⟩] }, rfl, rfl, rfl⟩,
   withBlk (fun b => (b.modReport fun r => { r with stallTimer := some 100 }).modPath fun p =>
     { p with host := .stalled (.read 12288 1) }) armed, rfl, rfl⟩

/-- The window's first and last word; a word dropped; DORMANT; the part's own write. -/
theorem witness_SnapshotWindowDropsWrites :
    (hostWriteWord (write 20480 0x1 1) 0 = some ⟨0x1, 1⟩ ∧
      windowOf armed.ctx armed.blk (hostWordAt (write 20480 0x1 1) 0) = (.snapshot, 0)) ∧
    windowOf armed.ctx armed.blk (hostWordAt (write 22720 0xF 1) 0) = (.snapshot, 2240) ∧
    (∃ s : State, ∃ w : CarriedWord, s.blk.path.carried = some w ∧ w.judged = .dropSnapshot) ∧
    State.reset.blk.live = false ∧ CarriesAccess (access ⟨.snapshotWrite, 20480, 8, some (List.replicate 8 1)⟩ armed)
      ⟨.snapshotWrite, 20480, 8, some (List.replicate 8 1)⟩ :=
  ⟨by decide +kernel, by decide +kernel, ⟨carry (write 20480 0xF 1) .dropSnapshot armed, _, rfl, rfl⟩, rfl, rfl⟩

/-- The host and the plan reader at a free port, at a run count of 3 and of 4; each alone; a command that decides. -/
theorem witness_ArbiterGrantsByRank :
    (∀ n ∈ [3, 4], ∃ b : Blocks, b.path.port = .free ∧ b.path.host = .portWait (.read 0 1) ∧ b.path.hostRun = n ∧
      b.path.waiting = [.plan] ∧ b.path.slot .plan = some ⟨.planRead, 4096, 4, none⟩) ∧
    (∃ b : Blocks, b.path.port = .free ∧ b.path.host = .portWait (.read 0 1) ∧ b.path.waiting = []) ∧
    (∃ b : Blocks, b.path.port = .free ∧ (∀ a, b.path.host ≠ .portWait a) ∧ b.path.waiting = [.plan] ∧
      b.path.waiting.filter (fun r => (Requests.mk false [.plan]).ints.contains r) = [.plan]) ∧
    armed.decides (.hostAccessPresented (.read 0 1)) = true ∧
    (carryWrite 0 0xF 1 armed).blk.path.port ≠ .free := by
  refine ⟨?_, ⟨armed.blk.modPath fun p => { p with host := .portWait (.read 0 1) }, rfl, rfl, by decide⟩,
    ⟨armed.blk.modPath fun p => p.request ⟨.planRead, 4096, 4, none⟩, rfl, nofun, by decide, by decide⟩, by decide,
    by decide⟩
  intro n _
  exact ⟨armed.blk.modPath fun p => { p.request ⟨.planRead, 4096, 4, none⟩ with host := .portWait (.read 0 1), hostRun := n },
    rfl, rfl, rfl, rfl, rfl⟩

/-! #### Restart unit -/

/-- A request in each part state, of a halted and of a moving line. -/
theorem witness_ArmingRequestsAreJudged :
    CarriesWrite (carryWrite 63 0xF (closingWord 1) .reset) (carried 63 0xF (closingWord 1)) ⟨0xF, closingWord 1⟩
      .anchor 63 ∧
    closingWord 1 ≠ 0 ∧ State.reset.blk.restart.part = .dormant ∧
    (armed.blk.restart.part = .armed ∧ armed.motion.state = .halted) ∧
    (withMotion (fun m => { m with state := .advancing }) armed).motion.state ≠ .halted ∧
    (inPart (.arming true)).blk.restart.part = .arming true :=
  ⟨carries (by decide) (by decide), by decide, rfl, ⟨rfl, rfl⟩, by decide, rfl⟩

/-- Each kind of word; the last result word of an arming refused from DORMANT, and a word with more behind it. -/
theorem witness_ResultWordsAreWrittenInOrder :
    (∃ r : Restart, r.work = [.result .pending 1]) ∧ (∃ r : Restart, r.work = [.startWord]) ∧
    (∃ s : State, ∃ a : Access, CarriesAccess s a ∧ a.kind = .startWrite) ∧
    ((inPart (.arming false)).blk.restart.part = .arming false ∧ (inPart (.arming false)).blk.restart.arming = none ∧
      [Work.result .badCookie 1].tail = [] ∧ [Work.result .badCookie 1, .result .refusedBusy 2].tail ≠ []) :=
  ⟨⟨{ Restart.reset with work := [.result .pending 1] }, rfl⟩, ⟨{ Restart.reset with work := [.startWord] }, rfl⟩,
   ⟨access ⟨.startWrite, 61, 1, some [Config.warmWord]⟩ armed, _, rfl, rfl⟩, rfl, rfl, rfl, by decide⟩

/-- An anchor that passes every check, with a start word. -/
def anchorWords (start : Word) : List Word :=
  [0x24160A00#32, 4096, 4, 65536, 8192, 12288, 8, 16384, 20480, 0x03000406#32, 4000, 8000, 12000, 16000, 20000, 24000] ++
    List.replicate 10 0 ++ [300000#32, 400000, 500000, 600000] ++ List.replicate 4 0 ++
    [700000#32, 1500000, 0x000F0401#32, 30000, 2000, 5000, 30, 500, 20000, 1100, 0x00F0002D#32, 0x006401F4#32, 100, 50000,
      0, 50] ++ List.replicate 11 0 ++ [start, 0, closingWord 1]

/-- A part that arms, with words read of each part, its last burst being carried. -/
def arming (kind : AccessKind) (a : Arming) : State :=
  access ⟨kind, 0, 8, none⟩ (withBlk (fun b => b.modRestart fun r => { r with arming := some a, work := [.readArming] })
    (inPart (.arming true)))

/-- An arming past its anchor phase whose mount window is being read. -/
theorem witness_ResidueStaysBelowDivisor :
    let s := arming .mountRead ⟨1, .mount, anchorWords 0, [], []⟩
    (-(s.cfg.divisor : Int) < s.motion.residue ∧ s.motion.residue < s.cfg.divisor) ∧ ArmingSound s := by
  refine ⟨by decide, ?_, ?_, fun _ _ _ => rfl, fun _ _ _ => ⟨_, rfl, by decide⟩⟩
  · intro a h
    cases h
    exact ⟨⟨true, rfl⟩, fun _ => by decide +kernel⟩
  · intro q x h
    cases q <;> cases h

/-- An anchor that fails each check, and one that passes them all. -/
theorem witness_AnchorIsReadAndChecked :
    (∃ s : State, ∃ a : Access, ∃ arm : Arming, CarriesAccess s a ∧ a.kind = .anchorRead ∧
      s.blk.restart.arming = some arm ∧ (arm.anchor ++ readBy s a).length < 64) ∧
    (∃ s : State, ∃ a : Access, ∃ arm : Arming, CarriesAccess s a ∧ a.kind = .anchorRead ∧
      s.blk.restart.arming = some arm ∧ 64 ≤ (arm.anchor ++ readBy s a).length) ∧
    anchorFault (anchorWords 0) = none ∧ anchorFault ((anchorWords 0).set 0 0) = some .badCookie ∧
    anchorFault ((anchorWords 0).set 63 1) = some .badCheck ∧ anchorFault ((anchorWords 0).set 2 3) = some .badWindows ∧
    anchorFault ((anchorWords 0).set 10 0) = some .badGeometry ∧ anchorFault ((anchorWords 0).set 38 499) = some .badGeometry :=
  ⟨⟨arming .anchorRead ⟨1, .anchor, [], [], []⟩, _, _, rfl, rfl, rfl, by decide⟩,
   ⟨arming .anchorRead ⟨1, .anchor, List.replicate 56 0, [], []⟩, _, _, rfl, rfl, rfl, by decide⟩,
   by decide +kernel, by decide +kernel, by decide +kernel, by decide +kernel, by decide +kernel, by decide +kernel⟩

/-- A mount window with no screen mounted, lift timeout 500 ms and reference screen 1. -/
def mountWords : List Word := List.replicate 64 0 ++ [0x000101F4#32] ++ List.replicate 30 0 ++ [closingWord 7]

/-- A mount window that passes and one that fails, with either start word, the last burst outstanding and not. -/
theorem witness_MountWindowDecidesTheArming :
    (∃ s : State, ∃ a : Access, ∃ arm : Arming, CarriesAccess s a ∧ a.kind = .mountRead ∧
      s.blk.restart.arming = some arm ∧ (arm.mount ++ readBy s a).length < 96) ∧
    (∃ s : State, ∃ a : Access, ∃ arm : Arming, CarriesAccess s a ∧ a.kind = .mountRead ∧
      s.blk.restart.arming = some arm ∧ 96 ≤ (arm.mount ++ readBy s a).length ∧
      mountOk (parseAnchor arm.anchor) (arm.mount ++ readBy s a) = true ∧ wordAt arm.anchor 61 = 0x0000574D#32 ∧
      s.motion.state = .halted) ∧
    mountOk (parseAnchor (anchorWords 0)) (mountWords.set 95 1) = false ∧ wordAt (anchorWords 0) 61 ≠ 0x0000574D#32 :=
  ⟨⟨arming .mountRead ⟨1, .mount, anchorWords 0, [], []⟩, _, _, rfl, rfl, rfl, by decide⟩,
   ⟨(arming .mountRead ⟨1, .mount, anchorWords 0x574D, mountWords.take 88, []⟩).setMem
      (Memory.writeWord [] 7 0xF (closingWord 7)), _, _, rfl, rfl, rfl, by decide, by decide +kernel, by decide +kernel, rfl⟩,
   by decide +kernel, by decide +kernel⟩

/-- A snapshot of a track of one STARVED BLANK, of generation 1, but for its closing word. -/
def snapshotWords : List Word :=
  snapshotBursts (atH 5000) (tracked fun t => { t with segs := [first], seqCounter := 1 }) 1 |>.flatMap (·.words)

/-- A snapshot not read to its end, a valid one and one that is not; a line that moved meanwhile. -/
theorem witness_SnapshotDecidesTheWarmArming :
    (∃ s : State, ∃ a : Access, ∃ arm : Arming, CarriesAccess s a ∧ a.kind = .snapshotRead ∧
      s.blk.restart.arming = some arm ∧ ¬ snapshotDone (arm.snapshot ++ readBy s a) = true) ∧
    (snapshotDone snapshotWords = true ∧ snapshotValid line snapshotWords = true) ∧
    (snapshotDone (snapshotWords.set 0 2) = true ∧ snapshotValid line (snapshotWords.set 0 2) = false) ∧
    ∃ b : Blocks, b.restart.moved = true :=
  ⟨⟨arming .snapshotRead ⟨1, .snapshot, anchorWords 0x574D, mountWords, []⟩, _, _, rfl, rfl, rfl, by decide +kernel⟩,
   by decide +kernel, by decide +kernel, armed.blk.modRestart fun r => { r with moved := true }, rfl⟩

/-- The outcome map at its first and its last slot; a snapshot write at its last burst and at its closing word, with the
pending flag set and clear. -/
theorem witness_OutcomeMapAndSnapshotWrites :
    (∀ k ∈ [0, 7], ∃ s : State, CarriesAccess s ⟨.mapRead, 12288 + 32 * k, 1, none⟩ ∧
      s.blk.restart.mapNext = some (k, 1) ∧ s.cfg.outcomeSlots = 8) ∧
    (∃ s : State, CarriesAccess s ⟨.snapshotWrite, 20480, 8, none⟩ ∧ s.blk.restart.writing = some ⟨1, [⟨0, []⟩]⟩) ∧
    ∀ p ∈ [true, false], ∃ s : State, CarriesAccess s ⟨.snapshotClosing, 22720, 1, none⟩ ∧
      s.blk.restart.writing = some ⟨1, []⟩ ∧ s.blk.restart.snapshotPending = p ∧ s.blk.restart.part = .armed := by
  refine ⟨?_, ⟨access _ (withBlk (fun b => b.modRestart fun r => { r with writing := some ⟨1, [⟨0, []⟩]⟩ }) armed), rfl, rfl⟩, ?_⟩
  · intro k _
    exact ⟨access _ (withBlk (fun b => b.modRestart fun r => { r with mapNext := some (k, 1) }) armed), rfl, rfl, rfl⟩
  · intro p _
    exact ⟨access _ (withBlk (fun b => b.modRestart fun r => { r with writing := some ⟨1, []⟩, snapshotPending := p }) armed),
      rfl, rfl, rfl, rfl⟩

end Sys2Proof.Tests
end

section
/-! What the work of a block may do to the cause set, the ports and the restart unit: the relations that the
invariants of every step rest on. -/

namespace Sys2Proof.Machine

/-! ### The cause set -/

/-- An entry of a kind as R13 and R14 allow it. -/
def LegalEntry (k : CauseKind) (e : Latched) : Prop :=
  (1 ≤ e.count ∧ e.count ≤ 255) ∧ (e.level = k.level ∨ (k = .moduleLost ∧ e.level = .trip))

/-- Every latched entry is legal. -/
def CauseSet.Legal (cs : CauseSet) : Prop := ∀ k e, cs.entry k = some e → LegalEntry k e

/-- No kind is latched. -/
def CauseSet.Clear (cs : CauseSet) : Prop := ∀ k, cs.entry k = none

theorem CauseSet.Clear.legal {cs : CauseSet} (h : cs.Clear) : cs.Legal := fun k e he => by simp [h k] at he

theorem CauseSet.reset_clear : Blocks.reset.causes.Clear := fun k => by simp [Blocks.reset, CauseSet.entry]

theorem inc8_bounds {n : Nat} (h : n ≤ 255) : 1 ≤ inc8 n ∧ inc8 n ≤ 255 := by unfold inc8 satInc; split <;> omega

/-- A raise claim at a level that R14 gives its kind leaves a legal set legal. -/
theorem Raised.legal {k : CauseKind} {source : Nat} {level : Level} {cs cs' : CauseSet}
    (h : Raised k source level cs cs') (hl : level = k.level ∨ (k = .moduleLost ∧ level = .trip)) (hcs : cs.Legal) :
    cs'.Legal := by
  intro j e he
  by_cases hj : j = k
  · subst hj
    rw [h.1] at he
    cases hk : cs.entry j with
    | none =>
      rw [hk] at he
      cases he
      exact ⟨⟨Nat.le_refl 1, (by decide : 1 ≤ 255)⟩, hl⟩
    | some old =>
      rw [hk] at he
      cases he
      obtain ⟨⟨_, hmax⟩, hlevel⟩ := hcs j old hk
      refine ⟨inc8_bounds hmax, ?_⟩
      dsimp only
      split
      · rename_i hm
        exact .inr ⟨hm.1, rfl⟩
      · exact hlevel
  · rw [h.2 j hj] at he
    exact hcs j e he

/-! ### Work that keeps the invariants -/

/-- What the work of a block may do to what the invariants speak of: the cause set stays legal and, in an idle part,
empty; the part state and the arming in progress stay; no access reaches the port or a request slot. -/
structure Tame (a b : Blocks) : Prop where
  legal : a.causes.Legal → b.causes.Legal
  clear : a.live = false → a.causes.Clear → b.causes.Clear
  part : b.restart.part = a.restart.part
  arming : b.restart.arming = a.restart.arming
  port : ∀ x i, b.path.port = .internal x i → a.path.port = .internal x i
  slots : ∀ q x, b.path.slot q = some x → a.path.slot q = some x

/-- What the work of the web side may do: it is tame, and the field line, the freeze, the dropped count and the
generation stay. -/
structure Calm (a b : Blocks) : Prop extends Tame a b where
  field : b.field = a.field
  freeze : b.path.freeze = a.path.freeze
  dropped : b.path.dropped = a.path.dropped
  generation : b.restart.generation = a.restart.generation

theorem live_of_part {a b : Blocks} (h : b.restart.part = a.restart.part) : b.live = a.live := by
  simp only [Blocks.live, h]

theorem Tame.live {a b : Blocks} (h : Tame a b) : b.live = a.live := live_of_part h.part

theorem Tame.trans {a b c : Blocks} (h : Tame a b) (k : Tame b c) : Tame a c where
  legal := k.legal ∘ h.legal
  clear := fun hl hc => k.clear (h.live.trans hl) (h.clear hl hc)
  part := k.part.trans h.part
  arming := k.arming.trans h.arming
  port := fun x i hx => h.port x i (k.port x i hx)
  slots := fun q x hx => h.slots q x (k.slots q x hx)

theorem Calm.trans {a b c : Blocks} (h : Calm a b) (k : Calm b c) : Calm a c where
  toTame := h.toTame.trans k.toTame
  field := k.field.trans h.field
  freeze := k.freeze.trans h.freeze
  dropped := k.dropped.trans h.dropped
  generation := k.generation.trans h.generation

/-- Work that leaves the cause set and the path unit, and of the restart unit the part state and the arming. -/
theorem Tame.of_eq {a b : Blocks} (causes : b.causes = a.causes) (part : b.restart.part = a.restart.part)
    (arming : b.restart.arming = a.restart.arming) (path : b.path = a.path) : Tame a b where
  legal := causes ▸ id
  clear := fun _ => causes ▸ id
  part := part
  arming := arming
  port := fun _ _ => path ▸ id
  slots := fun _ _ => path ▸ id

theorem Calm.of_eq {a b : Blocks} (causes : b.causes = a.causes) (restart : b.restart = a.restart)
    (path : b.path = a.path) (field : b.field = a.field) : Calm a b where
  toTame := .of_eq causes (by rw [restart]) (by rw [restart]) path
  field := field
  freeze := by rw [path]
  dropped := by rw [path]
  generation := by rw [restart]

theorem Tame.refl (b : Blocks) : Tame b b := .of_eq rfl rfl rfl rfl
theorem Calm.refl (b : Blocks) : Calm b b := .of_eq rfl rfl rfl rfl

/-- Calm work after tame work. -/
theorem Tame.calm {a b c : Blocks} (h : Tame a b) (k : Calm b c) : Tame a c := h.trans k.toTame

section Updates
variable {a b : Blocks} (h : Calm a b)
include h

theorem modTrack_calm {f : Track → Track} : Calm a (b.modTrack f) := h.trans (.of_eq rfl rfl rfl rfl)
theorem modPlan_calm {f : Plan → Plan} : Calm a (b.modPlan f) := h.trans (.of_eq rfl rfl rfl rfl)
theorem modCache_calm {f : Cache → Cache} : Calm a (b.modCache f) := h.trans (.of_eq rfl rfl rfl rfl)
theorem setCache_calm {v : Cache} : Calm a (b.setCache v) := h.trans (.of_eq rfl rfl rfl rfl)
theorem modCues_calm {f : Cues → Cues} : Calm a (b.modCues f) := h.trans (.of_eq rfl rfl rfl rfl)
theorem modStations_calm {f : Stations → Stations} : Calm a (b.modStations f) := h.trans (.of_eq rfl rfl rfl rfl)
theorem modOven_calm {f : Oven → Oven} : Calm a (b.modOven f) := h.trans (.of_eq rfl rfl rfl rfl)
theorem modReport_calm {f : Report → Report} : Calm a (b.modReport f) := h.trans (.of_eq rfl rfl rfl rfl)

/-- A raise claim at a level that R14 gives its kind. -/
theorem raiseAt_calm {k : CauseKind} {source : Nat} {level : Level}
    (hl : level = k.level ∨ (k = .moduleLost ∧ level = .trip)) : Calm a (raiseAt k source level b) := by
  refine h.trans ?_
  by_cases live : b.live = true
  · exact {
      legal := Raised.legal (raiseAt_raised k source level b live) hl
      clear := fun hl => by rw [live] at hl; cases hl
      part := by simp
      arming := by simp
      port := by simp
      slots := by simp
      field := by simp
      freeze := by simp
      dropped := by simp
      generation := by simp }
  · rw [raiseAt_idle _ _ _ _ (by simpa using live)]
    exact .refl b

theorem raise_calm {k : CauseKind} {source : Nat} : Calm a (raise k source b) := raiseAt_calm h (.inl rfl)

/-- A change of the restart unit that leaves the part state, the arming and the generation. -/
theorem modRestart_calm {f : Restart → Restart} (part : ∀ r, (f r).part = r.part) (arming : ∀ r, (f r).arming = r.arming)
    (generation : ∀ r, (f r).generation = r.generation) : Calm a (b.modRestart f) :=
  h.trans {
    toTame := .of_eq rfl (part b.restart) (arming b.restart) rfl
    field := rfl
    freeze := rfl
    dropped := rfl
    generation := generation b.restart }

end Updates

theorem foldl_calm {ι : Type} {a : Blocks} {f : Blocks → ι → Blocks} (hf : ∀ b i, Calm a b → Calm a (f b i)) (l : List ι) :
    ∀ {b : Blocks}, Calm a b → Calm a (l.foldl f b) := by
  induction l with
  | nil => exact id
  | cons i l ih => exact fun h => ih (hf _ i h)

theorem ite_calm {a b c : Blocks} {p : Prop} [Decidable p] (hb : Calm a b) (hc : Calm a c) :
    Calm a (if p then b else c) := by
  split
  · exact hb
  · exact hc

/-! ### The retirement queue and snapshot triggers -/

section Work
variable {a b : Blocks} (h : Calm a b) (x : Ctx)
include h

theorem queueRecord_calm {r : OutRecord} : Calm a (queueRecord r b) := by
  unfold queueRecord
  split
  · dsimp only
    split
    · exact raise_calm (modReport_calm h)
    · exact modReport_calm h
  · exact raise_calm (modReport_calm h)

theorem reportRetired_calm {g : Segment} : Calm a (reportRetired g b) := queueRecord_calm (modReport_calm h)

theorem reportRejected_calm {id : BitVec 16} {slot : Nat} {reason : RejectReason} :
    Calm a (reportRejected id slot reason b) := queueRecord_calm (modReport_calm h)

omit h in
/-- A snapshot trigger leaves the part state, the arming and the generation. -/
theorem trigger_restart (b : Blocks) : ∃ work mark pending, trigger x b =
    b.setRestart { b.restart with work := work, distanceMark := mark, snapshotPending := pending } := by
  simp only [trigger, Blocks.modRestart]
  split
  · split <;> exact ⟨_, _, _, rfl⟩
  · exact ⟨_, _, _, rfl⟩
  · exact ⟨_, _, _, rfl⟩
  · exact ⟨_, _, _, rfl⟩

theorem trigger_calm : Calm a (trigger x b) := by
  obtain ⟨work, mark, pending, e⟩ := trigger_restart x b
  rw [e]
  exact modRestart_calm (f := fun r => { r with work := work, distanceMark := mark, snapshotPending := pending }) h
    (fun _ => rfl) (fun _ => rfl) (fun _ => rfl)

theorem restartAdvance_calm : Calm a (restartAdvance x b) := by
  unfold restartAdvance
  split
  · exact trigger_calm (modRestart_calm
      (f := fun r => { r with distanceMark := position x.motion.h (x.motion.h + x.cfg.snapshotDistance) }) h
      (fun _ => rfl) (fun _ => rfl) (fun _ => rfl)) x
  · exact h

/-! ### The oven unit -/

theorem modZone_calm {z : Fin 8} {f : Zone → Zone} : Calm a (modZone z f b) := modOven_calm h

theorem refreshZone_calm {z : Fin 8} : Calm a (refreshZone x b z) := by
  unfold refreshZone
  dsimp only
  split
  · split <;> exact modZone_calm h
  · exact modZone_calm h
  · exact modZone_calm h

theorem refreshZones_calm : Calm a (refreshZones x b) := foldl_calm (fun _ _ h => refreshZone_calm h x) _ h

theorem giveVerdict_calm {source q rel : Nat} {v : Verdict} : Calm a (giveVerdict source q rel v b) := by
  have counted := modOven_calm (f := countVerdict v)
    (modTrack_calm (f := modSeg q fun g => (modProbe rel (fun p => { p with verdict := v }) g).gain v) h)
  cases v
  case undercured | overcured => exact ite_calm counted (raise_calm counted)
  all_goals exact counted

theorem placeProbe_calm {q rel : Nat} : Calm a (placeProbe x b q rel) := by
  unfold placeProbe
  split
  · exact h
  · split
    · exact h
    · dsimp only
      split
      · exact giveVerdict_calm (modTrack_calm h)
      · exact modTrack_calm h

theorem placeProbes_calm : Calm a (placeProbes x b) := foldl_calm (fun _ _ h => placeProbe_calm h x) _ h

theorem createProbe_calm {q rel : Nat} : Calm a (createProbe x q rel b) := placeProbe_calm (modTrack_calm h) x

theorem growProbe_calm {k : Nat} : Calm a (growProbe x b k) := by
  unfold growProbe
  split
  · exact h
  · dsimp only
    split
    · exact createProbe_calm h x
    · exact h

theorem ovenAdmitted_calm {g : Segment} : Calm a (ovenAdmitted x g b) :=
  ite_calm (createProbe_calm h x) h

theorem ovenClosed_calm {q n : Nat} : Calm a (ovenClosed x q n b) := by
  unfold ovenClosed
  have cut := modTrack_calm (f := modSeg q fun g => { g with probes := g.probes.filter fun p => decide (p.rel < n) }) h
  revert cut
  generalize b.modTrack _ = c
  intro cut
  have tail : Calm a (match c.track.find q with
      | some g =>
        (match g.probes.getLast? with
         | some p => if p.rel + 1 < n then createProbe x q (n - 1) c else c
         | none => createProbe x q (n - 1) c)
      | none => c) := by
    split
    · split
      · split
        · exact createProbe_calm cut x
        · exact cut
      · exact createProbe_calm cut x
    · exact cut
  dsimp only
  split
  · exact modOven_calm (modTrack_calm tail)
  · exact tail

theorem ovenAdvance_calm : Calm a (ovenAdvance x b) :=
  foldl_calm (fun _ _ h => growProbe_calm h x) _ (placeProbes_calm (refreshZones_calm h x) x)

theorem enterStandby_calm {c : Anchor} : Calm a (enterStandby c b) := raise_calm (modOven_calm h)

theorem enterVent_calm {c : Anchor} : Calm a (enterVent c b) := by
  unfold enterVent
  exact modOven_calm (raise_calm (foldl_calm (fun _ _ h => giveVerdict_calm h) _ (modOven_calm h)))

theorem dwellTick_calm : Calm a (dwellTick x b) := by
  unfold dwellTick
  split
  · dsimp only
    split
    · exact enterStandby_calm (modOven_calm h)
    · split
      · exact enterVent_calm (modOven_calm h)
      · exact modOven_calm h
  · exact h

theorem accountingTick_calm : Calm a (accountingTick x b) := dwellTick_calm (modTrack_calm h) x

theorem ovenAdvancing_calm {c : Anchor} : Calm a (ovenAdvancing c b) := modOven_calm h

theorem restoreProbes_calm : Calm a (restoreProbes x b) :=
  foldl_calm (fun _ _ h => modTrack_calm (placeProbe_calm h x)) _ h

/-! ### The screen stations -/

theorem modStation_calm {k : Fin 16} {f : Station → Station} : Calm a (modStation k f b) := modStations_calm h

theorem evaluateWant_calm {k : Fin 16} : Calm a (evaluateWant x b k) :=
  ite_calm h (modStation_calm h)

theorem evaluateWants_calm : Calm a (evaluateWants x b) := foldl_calm (fun _ _ h => evaluateWant_calm h x) _ h

theorem liftUnexpected_calm {k : Fin 16} : Calm a (liftUnexpected x k b) :=
  evaluateWant_calm (raise_calm (modStations_calm (modStation_calm h))) x

theorem liftReport_calm {k : Fin 16} {r : LiftPosition} : Calm a (liftReport x k r b) := by
  unfold liftReport
  dsimp only
  split
  · exact liftUnexpected_calm h x
  · exact liftUnexpected_calm h x
  · exact liftUnexpected_calm h x
  · exact liftUnexpected_calm h x
  · exact modStation_calm h
  · exact modStation_calm h
  · exact ite_calm (evaluateWant_calm (modStation_calm h) x) h
  · exact h

theorem liftExpiry_calm {k : Fin 16} : Calm a (liftExpiry x k b) := by
  unfold liftExpiry
  split
  · exact evaluateWant_calm (raise_calm (modStations_calm (modStation_calm h))) x
  · exact evaluateWant_calm (raise_calm (modStations_calm (modStation_calm h))) x
  all_goals exact modStation_calm h

theorem stationLost_calm {k : Fin 16} : Calm a (stationLost x k b) := by
  have level : lossLevel (b.stationOf k).lift = .hold ∨ lossLevel (b.stationOf k).lift = .trip := by
    cases (b.stationOf k).lift <;> simp [lossLevel]
  exact evaluateWant_calm (raiseAt_calm (modStation_calm h) (level.imp id fun e => ⟨rfl, e⟩)) x

theorem refreshStation_calm {k : Fin 16} : Calm a (refreshStation x b k) := by
  unfold refreshStation
  dsimp only
  split
  · exact h
  · split
    · exact modStation_calm (modTrack_calm h)
    · exact modStation_calm h
    · exact modStation_calm h

theorem stationBoundary_calm {k : Fin 16} : Calm a (stationBoundary x b k) :=
  ite_calm h (evaluateWant_calm (refreshStation_calm h x) x)

theorem seamHeadTest_calm {k : Fin 16} : Calm a (seamHeadTest x b k) := by
  unfold seamHeadTest
  split
  · exact h
  · dsimp only
    split
    · exact h
    · exact raise_calm (modStations_calm (modTrack_calm h))

theorem accountUnit_calm {k : Fin 16} : Calm a (accountUnit x b k) := by
  unfold accountUnit
  split
  · exact modStation_calm h
  · exact h

theorem judgeRepeat_calm {k : Fin 16} : Calm a (judgeRepeat k b) := by
  unfold judgeRepeat
  dsimp only
  split
  · split
    · exact raise_calm (modTrack_calm (modStation_calm h))
    · exact raise_calm (modStation_calm h)
    · exact raise_calm (modStation_calm h)
  · exact modStation_calm h

theorem repeatBoundary_calm {k : Fin 16} : Calm a (repeatBoundary x b k) :=
  ite_calm (modStation_calm (judgeRepeat_calm h)) h

theorem stationAdvance_calm {k : Fin 16} : Calm a (stationAdvance x b k) :=
  repeatBoundary_calm (evaluateWant_calm (accountUnit_calm (seamHeadTest_calm (refreshStation_calm h x) x) x) x) x

theorem registration_calm {k : Fin 16} {error : Int} : Calm a (registration k error b) := by
  unfold registration
  dsimp only
  split
  · split
    · exact modTrack_calm (modStation_calm h)
    · exact modStation_calm h
    · exact modStation_calm h
  · exact h

theorem stationReply_calm {k : Fin 16} {r : LiftPosition} {error : Int} : Calm a (stationReply x k r error b) :=
  liftReport_calm (registration_calm h) x

theorem applyImage_calm {off : Nat} {w : WriteWord} : Calm a (applyImage off w b) := by
  unfold applyImage
  split
  · exact modStations_calm h
  · exact h

theorem refuseMount_calm {detail : MountDetail} {source : Nat} : Calm a (refuseMount detail source b) :=
  raise_calm (modStations_calm h)

theorem takeTrim_calm {k : Fin 16} {w : Word} : Calm a (takeTrim k w b) := by
  unfold takeTrim
  dsimp only
  split
  · exact refuseMount_calm (modStations_calm h)
  · split
    · exact refuseMount_calm (modStations_calm h)
    · exact modStations_calm (modStation_calm h)

/-! ### The cue queue -/

theorem takeScreenCue_calm {k : Fin 16} {action : CueAction} {q : Nat} : Calm a (takeScreenCue x b k action q) :=
  ite_calm (modStation_calm h) (evaluateWant_calm (modStation_calm h) x)

theorem fireScreenCue_calm {k : Fin 16} {action : CueAction} {q : Nat} : Calm a (fireScreenCue x b k action q) :=
  ite_calm (takeScreenCue_calm h x) (modCues_calm h)

theorem actCue_calm {p : PendingCue} : Calm a (actCue x b p) := by
  unfold actCue
  cases p.cue.action
  case zoneSet =>
    dsimp only
    split
    · exact modZone_calm h
    · exact h
  case mark => exact modTrack_calm (modCues_calm h)
  case lift | lower | pasteHold | pasteResume =>
    dsimp only
    split
    · exact fireScreenCue_calm h x
    · exact modCues_calm h

theorem flagLate_calm {p : PendingCue} : Calm a (flagLate p b) :=
  ite_calm (modCues_calm (modTrack_calm h)) h

theorem fireCue_calm {p : PendingCue} : Calm a (fireCue x b p) :=
  ite_calm (modCues_calm h) (actCue_calm (flagLate_calm (modCues_calm h)) x)

theorem fireDue_calm : Calm a (fireDue x b) := foldl_calm (fun _ _ h => fireCue_calm h x) _ (modCues_calm h)

theorem insertCue_calm {lateBelow edge q : Nat} {c : Cue} : Calm a (insertCue x lateBelow edge q b c) :=
  ite_calm (fireDue_calm (modCues_calm (modCues_calm h)) x) (modCues_calm (modTrack_calm (raise_calm (modCues_calm h))))

theorem insertBatch_calm {advance : Bool} {edge q : Nat} {cs : List Cue} : Calm a (insertBatch x advance edge q cs b) :=
  foldl_calm (fun _ _ h => insertCue_calm h x) _ h

theorem headBatch_calm {advance : Bool} {g : Segment} : Calm a (headBatch x advance g b) :=
  ite_calm (insertBatch_calm h x) h

theorem rebuildListed_calm {g : Segment} {c : Cue} : Calm a (rebuildListed x g b c) := by
  unfold rebuildListed
  split
  · unfold rebuildCue
    split
    · exact modCues_calm h
    · exact insertCue_calm h x
  · exact h

theorem rebuildBatch_calm {g : Segment} : Calm a (rebuildBatch x b g) :=
  foldl_calm (fun _ _ h => rebuildListed_calm h x) _ h

/-! ### The setting cache -/

theorem tellStaged_calm {r : Answer} : Calm a (tellStaged r b) := modPlan_calm h

theorem lookupStaged_calm {n : Nat} : Calm a (lookupStaged n b) := by
  unfold lookupStaged
  split
  · exact raise_calm (tellStaged_calm (setCache_calm h))
  · exact tellStaged_calm (setCache_calm h)

theorem retryLookup_calm : Calm a (retryLookup b) := by
  unfold retryLookup
  split
  · exact h
  · split
    · exact h
    · exact tellStaged_calm (setCache_calm h)

theorem claimRef_calm {r : SettingRef} : Calm a (claimRef r b) := by
  unfold claimRef
  split
  · exact modCache_calm h
  · exact h

theorem releaseEntry_calm {e : Fin 8} : Calm a (releaseEntry e b) := by
  unfold releaseEntry
  split
  · exact h
  · dsimp only
    split
    · exact retryLookup_calm (modCache_calm (modCache_calm h))
    · exact modCache_calm h

theorem releaseRef_calm {r : Option SettingRef} : Calm a (releaseRef r b) := by
  unfold releaseRef
  split
  · exact releaseEntry_calm h
  · exact h

theorem supersede_calm {e : Fin 8} : Calm a (supersede e b) := modCache_calm h

theorem supersedeUnmounted_calm {gone : Fin 16 → Bool} : Calm a (supersedeUnmounted gone b) :=
  foldl_calm (fun _ _ h => supersede_calm h) _ h

end Work

/-- A withdrawal empties a slot, and leaves the rest of the path unit but the host run count (R184). -/
theorem withdraw_eq (p : Path) (r : Requester) :
    ∃ slots run, p.withdraw r = { p with slots := slots, hostRun := run } ∧
      (slots = p.slots ∨ slots = p.slots.set r.rank none) := by
  unfold Path.withdraw
  split
  · dsimp only
    split
    · exact ⟨_, _, rfl, .inr rfl⟩
    · exact ⟨_, _, rfl, .inr rfl⟩
  · exact ⟨_, _, rfl, .inl rfl⟩

/-- A slot after the slots have had one emptied. -/
theorem slot_of_emptied {p : Path} {slots : Bank (Option Access) 4} {i : Fin 4} {q : Requester} {x : Access}
    (h : slots = p.slots.set i none) (hx : slots[q.rank] = some x) : p.slot q = some x := by
  subst h
  by_cases hq : i.val = q.rank.val
  · simp [hq] at hx
  · simpa [Path.slot, hq] using hx

theorem slot_withdraw {p : Path} {r q : Requester} {x : Access} (h : (p.withdraw r).slot q = some x) :
    p.slot q = some x := by
  obtain ⟨slots, run, e, hs⟩ := withdraw_eq p r
  rw [e] at h
  rcases hs with rfl | hs
  · exact h
  · exact slot_of_emptied hs h

section Work
variable {a b : Blocks} (h : Calm a b) (x : Ctx)
include h

theorem withdraw_calm {r : Requester} : Calm a (b.modPath fun p => p.withdraw r) := by
  obtain ⟨slots, run, e, _⟩ := withdraw_eq b.path r
  exact h.trans {
    legal := id
    clear := fun _ => id
    part := rfl
    arming := rfl
    port := by simp [e]
    slots := fun q x => slot_withdraw
    field := rfl
    freeze := by simp [e]
    dropped := by simp [e]
    generation := rfl }

theorem withdrawFetch_calm {e : Fin 8} : Calm a (withdrawFetch e b) :=
  ite_calm (withdraw_calm h) h

theorem restartFetch_calm {e : Fin 8} : Calm a (restartFetch e b) := modCache_calm (withdrawFetch_calm h)

/-! ### The track unit -/

theorem handClosure_calm {advance : Bool} {q : Nat} : Calm a (handClosure x advance q b) := by
  unfold handClosure
  split
  · exact h
  · split
    · exact h
    · split
      · exact ovenClosed_calm (insertBatch_calm h x) x
      · exact h

theorem handAdmission_calm {advance : Bool} : Calm a (handAdmission x advance b) := by
  unfold handAdmission
  split
  · exact h
  · split
    · exact ovenAdmitted_calm (headBatch_calm h x) x
    · exact h

theorem refreshBehind_calm {p : Nat} : Calm a (refreshBehind x p b) :=
  foldl_calm (fun _ _ h => refreshZone_calm h x) _ (foldl_calm (fun _ _ h => stationBoundary_calm h x) _ h)

theorem evaluateMoved_calm {old : Track} : Calm a (evaluateMoved x old b) :=
  foldl_calm (fun _ _ h => evaluateWant_calm h x) _ h

theorem succeed_calm {advance : Bool} {g s : Segment} : Calm a (succeed x advance g s b) :=
  trigger_calm (evaluateMoved_calm (refreshBehind_calm (handAdmission_calm (handClosure_calm (modTrack_calm h) x) x) x) x) x

theorem starvedCause_calm {g : Segment} : Calm a (starvedCause g b) :=
  ite_calm (raise_calm (modTrack_calm h)) (raise_calm h)

theorem admitStarved_calm {advance : Bool} {g : Segment} {p : Nat} : Calm a (admitStarved x advance g p b) :=
  starvedCause_calm (succeed_calm h x)

theorem admitStaged_calm {advance : Bool} {g : Segment} {o : StagedOrder} {p : Nat} :
    Calm a (admitStaged x advance g o p b) := succeed_calm (modPlan_calm (modTrack_calm h)) x

theorem admitContinuation_calm {advance : Bool} {g : Segment} {c : ContOwed} {p : Nat} :
    Calm a (admitContinuation x advance g c p b) := succeed_calm (modTrack_calm h) x

theorem deferTo_calm {forCache : Bool} {q : Nat} : Calm a (deferTo forCache q b) := modTrack_calm h

theorem deferTrack_calm {q : Nat} : Calm a (deferTrack q b) :=
  ite_calm (deferTo_calm h) (raise_calm (deferTo_calm h))

theorem takeBoundary_calm {p : Nat} : Calm a (takeBoundary x p b) := by
  unfold takeBoundary
  split
  · exact h
  · split
    · exact deferTrack_calm h
    · split
      · exact admitContinuation_calm h x
      · exact admitStarved_calm h x
      · split
        · exact admitStaged_calm h x
        · exact admitStaged_calm h x
        · exact refreshBehind_calm (modTrack_calm h) x
        · exact deferTo_calm h

theorem shortenOwed_calm {minOrder q : Nat} {c : ContOwed} {n : Int} : Calm a (shortenOwed minOrder q c n b) :=
  ite_calm (modTrack_calm (releaseRef_calm h)) (modTrack_calm h)

theorem claimOwed_calm {o : Option ContOwed} : Calm a (claimOwed o b) := by
  unfold claimOwed
  split
  · exact claimRef_calm h
  · exact h

theorem truncateAt_calm {g : Segment} {e : PendingSeam} : Calm a (truncateAt x g e b) := by
  unfold truncateAt
  dsimp only
  split
  · exact succeed_calm (claimOwed_calm (modCues_calm (modTrack_calm h))) x
  · exact succeed_calm (claimOwed_calm (modTrack_calm h)) x

theorem seamAtBoundary_calm {g : Segment} {e : PendingSeam} : Calm a (seamAtBoundary x g e b) := by
  unfold seamAtBoundary
  dsimp only
  split
  · split
    · exact shortenOwed_calm (succeed_calm (modTrack_calm (modTrack_calm h)) x)
    · exact succeed_calm (modTrack_calm (modTrack_calm h)) x
  · exact succeed_calm (modTrack_calm h) x

theorem coverSeam_calm {g : Segment} {e : PendingSeam} : Calm a (coverSeam x g e b) := by
  unfold coverSeam
  dsimp only
  split
  · exact shortenOwed_calm (modTrack_calm h)
  · exact modTrack_calm h

theorem absorbSeam_calm {g : Segment} {e : PendingSeam} : Calm a (absorbSeam x g e b) := raise_calm (modTrack_calm h)

theorem meetSeam_calm {g : Segment} {e : PendingSeam} : Calm a (meetSeam x g e b) := by
  unfold meetSeam
  split
  · exact seamAtBoundary_calm h x
  · split
    · exact coverSeam_calm h x
    · split
      · exact truncateAt_calm h x
      · exact absorbSeam_calm h x

/-- A WAITING boundary resolved by a STARVED BLANK (R31, R61). -/
theorem resolveRejected_calm : Calm a (resolveRejected x b) := by
  unfold resolveRejected
  split
  · exact admitStarved_calm h x
  · exact h

theorem takeSeam_calm {e : PendingSeam} : Calm a (takeSeam x e b) := by
  have resolved := resolveRejected_calm h x
  have same : takeSeam x e b = match (resolveRejected x b).track.entering with
      | some g => evaluateWants x (meetSeam x g e (resolveRejected x b))
      | none => resolveRejected x b := rfl
  rw [same]
  split
  · exact evaluateWants_calm (meetSeam_calm resolved x) x
  · exact resolved

theorem retire_calm {g : Segment} : Calm a (retire x b g) := by
  have handed := trigger_calm (modCues_calm (f := fun s => { s with
    queue := s.queue.filter fun p => !decide (p.seq = g.seq)
    cancelled := satAdd 65535 s.cancelled (s.queue.filter fun p => decide (p.seq = g.seq)).length })
    (releaseRef_calm (r := g.setting) (reportRetired_calm (g := g) (modTrack_calm (f := fun t => { t with
      segs := t.segs.filter fun s => s.seq ≠ g.seq
      seams := t.seams.filter fun e => e.absorbedBy ≠ some g.seq }) h)))) x
  unfold retire evaluateRetired
  dsimp only
  split
  · exact evaluateMoved_calm handed x
  · exact evaluateWants_calm handed x

theorem retireAll_calm : Calm a (retireAll x b) := foldl_calm (fun _ _ h => retire_calm h x) _ h

theorem starvedCheck_calm : Calm a (starvedCheck x b) := by
  unfold starvedCheck
  split
  · split
    · exact modTrack_calm h
    · exact h
  · exact h

omit h in
theorem takeDue_calm : ∀ (n : Nat) (tried : Bool) {b : Blocks}, Calm a b → Calm a (takeDue x n tried b) := by
  intro n
  induction n with
  | zero => exact fun _ _ h => h
  | succ n ih =>
    intro tried b h
    unfold takeDue
    dsimp only
    split
    · split
      · exact ih _ (takeSeam_calm h x)
      · exact ih _ (takeBoundary_calm h x)
    · exact ih _ (takeSeam_calm h x)
    · exact ih _ (takeBoundary_calm h x)
    · exact h

theorem trackAdvance_calm : Calm a (trackAdvance x b) := takeDue_calm x _ _ (starvedCheck_calm (retireAll_calm h x) x)

theorem offerSeam_calm {d : Nat} : Calm a (offerSeam x d b) :=
  ite_calm (evaluateWants_calm (modTrack_calm h) x) (raise_calm (modTrack_calm h))

theorem activeEdge_calm : Calm a (activeEdge x b) :=
  ite_calm (modTrack_calm h) (offerSeam_calm (modTrack_calm h) x)

theorem resolveReady_calm : Calm a (resolveReady x b) := by
  unfold resolveReady
  split
  · split
    · exact admitStaged_calm h x
    · exact h
  · exact h

/-! ### The plan reader and the end of a fetch -/

theorem judgeClosing_calm {slot : Nat} {w : Word} : Calm a (judgeClosing x slot w b) := by
  unfold judgeClosing
  split
  · exact raise_calm h
  · split
    · exact modPlan_calm h
    · exact raise_calm h

theorem planWord_calm {off : Nat} {w : WriteWord} : Calm a (planWord x off w b) :=
  ite_calm (judgeClosing_calm h x) h

theorem rejectOrder_calm {id : BitVec 16} {slot : Nat} {reason : RejectReason} : Calm a (rejectOrder id slot reason b) :=
  raise_calm (modPlan_calm (reportRejected_calm h))

theorem rejectStaged_calm {reason : RejectReason} {o : StagedOrder} : Calm a (rejectStaged x reason o b) :=
  resolveRejected_calm (rejectOrder_calm (modPlan_calm h)) x

theorem planReadDone_calm {ws : List Word} : Calm a (planReadDone x ws b) := modPlan_calm h

theorem stageOrder_calm {o : StagedOrder} : Calm a (stageOrder o b) :=
  ite_calm (lookupStaged_calm (modPlan_calm h)) (modPlan_calm h)

theorem freeingDone_calm : Calm a (freeingDone x b) := by
  unfold freeingDone
  split
  · dsimp only
    split
    · exact stageOrder_calm (modPlan_calm h)
    · exact rejectOrder_calm (modPlan_calm h)
    · exact modPlan_calm h
  · exact h

theorem handReady_calm {e : Fin 8} : Calm a (handReady x e b) := by
  have rebuilt (l : List Nat) : ∀ {c}, Calm a c → Calm a (l.foldl (fun b q => match b.track.find q with
      | some g => rebuildBatch x b g
      | none => b) c) := by
    refine foldl_calm (fun b q h => ?_) l
    split
    · exact rebuildBatch_calm h x
    · exact h
  unfold handReady
  dsimp only
  split
  · exact evaluateWants_calm (resolveReady_calm (modPlan_calm (rebuilt _ (modTrack_calm h))) x) x
  · exact evaluateWants_calm (rebuilt _ (modTrack_calm h)) x

theorem fetchReady_calm {e : Fin 8} {t : Setting} : Calm a (fetchReady x e t b) := by
  unfold fetchReady
  dsimp only
  split
  · exact retryLookup_calm (handReady_calm (modCache_calm h) x)
  · exact handReady_calm (modCache_calm h) x

theorem fetchFailed_calm {e : Fin 8} {reason : RejectReason} : Calm a (fetchFailed x e reason b) := by
  unfold fetchFailed
  dsimp only
  split
  · exact retryLookup_calm (rejectStaged_calm (modTrack_calm (modCache_calm (withdrawFetch_calm h))) x)
  · exact retryLookup_calm (modTrack_calm (modCache_calm (withdrawFetch_calm h)))

theorem fetchDone_calm {e : Fin 8} {ws : List Word} : Calm a (fetchDone x e ws b) := by
  unfold fetchDone
  dsimp only
  split
  · exact fetchReady_calm h x
  · exact fetchFailed_calm (modCache_calm h) x

theorem fetchBurst_calm {ws : List Word} : Calm a (fetchBurst x ws b) := by
  unfold fetchBurst
  split
  · exact h
  · dsimp only
    split
    · exact modCache_calm h
    · exact fetchDone_calm h x

theorem recordWritten_calm {n : Nat} : Calm a (recordWritten x n b) := by
  unfold recordWritten
  split
  · exact h
  · split
    · exact supersede_calm h
    · split
      · exact restartFetch_calm h
      · exact fetchFailed_calm h x

theorem restoreClaim_calm {n : Nat} : Calm a (restoreClaim b n) := by
  unfold restoreClaim
  dsimp only
  split
  · split
    · exact lookupStaged_calm (modTrack_calm h)
    · exact modTrack_calm h
  · split
    · exact tellStaged_calm (modTrack_calm (setCache_calm h))
    · exact modTrack_calm (setCache_calm h)

theorem restoreClaims_calm : Calm a (restoreClaims b) := by
  have claimed := foldl_calm (fun _ n h => restoreClaim_calm h (n := n)) (restoredNumbers b.track.segs) h
  unfold restoreClaims
  dsimp only
  split
  · split
    · exact claimed
    · exact lookupStaged_calm claimed
  · exact claimed

/-! ### A unit event and its takers -/

theorem markMoved_calm : Calm a (markMoved b) := by
  rw [markMoved_eq]
  exact modRestart_calm (f := fun r => { r with moved := (markMoved b).restart.moved }) h
    (fun _ => rfl) (fun _ => rfl) (fun _ => rfl)

theorem takeAdvance_calm {entering : Bool} {t : Taker} : Calm a (takeAdvance x entering b t) := by
  cases t with
  | motion =>
    simp only [takeAdvance]
    split
    · exact ovenAdvancing_calm h
    · exact h
  | track => exact trackAdvance_calm h x
  | station k => exact stationAdvance_calm h x
  | cues => exact fireDue_calm h x
  | oven => exact ovenAdvance_calm h x
  | restart => exact restartAdvance_calm h x

theorem takeReturn_calm {entering : Bool} {t : Taker} : Calm a (takeReturn x entering b t) := by
  cases t with
  | motion =>
    simp only [takeReturn]
    split
    · exact ovenAdvancing_calm h
    · exact h
  | station k => exact repeatBoundary_calm h x
  | track | cues | oven | restart => exact h

theorem handMove_calm {entering : Bool} {order : List Taker} {v : Move} : Calm a (handMove x entering order v b) := by
  cases v with
  | advance => exact foldl_calm (fun _ _ h => takeAdvance_calm h x) _ h
  | ret => exact foldl_calm (fun _ _ h => takeReturn_calm h x) _ h
  | back =>
    simp only [handMove]
    split
    · exact raise_calm h
    · exact h
  | lostForward => exact raise_calm (takeAdvance_calm h x)
  | lostBackward => exact raise_calm h

end Work

end Sys2Proof.Machine
end

section
/-! The work of the field line, of the host's words and of the report unit's completions is tame. -/

namespace Sys2Proof.Machine

section Work
variable {a b : Blocks} (h : Tame a b) (x : Ctx)
include h

theorem modField_tame {f : FieldLine → FieldLine} : Tame a (b.modField f) := h.trans (.of_eq rfl rfl rfl rfl)
theorem setField_tame {v : FieldLine} : Tame a (b.setField v) := h.trans (.of_eq rfl rfl rfl rfl)
theorem modReport_tame {f : Report → Report} : Tame a (b.modReport f) := h.trans (.of_eq rfl rfl rfl rfl)
theorem modModule_tame {m : Fin 24} {f : Module → Module} : Tame a (modModule m f b) := modField_tame h

/-- A change of the restart unit that leaves the part state and the arming. -/
theorem modRestart_tame {f : Restart → Restart} (part : ∀ r, (f r).part = r.part) (arming : ∀ r, (f r).arming = r.arming) :
    Tame a (b.modRestart f) := h.trans (.of_eq rfl (part _) (arming _) rfl)

/-- A change of the path unit that puts nothing into a slot and no access on the port. -/
theorem modPath_tame {f : Path → Path} (port : ∀ p y i, (f p).port = .internal y i → p.port = .internal y i)
    (slots : ∀ p, (f p).slots = p.slots) : Tame a (b.modPath f) :=
  h.trans {
    legal := id
    clear := fun _ => id
    part := rfl
    arming := rfl
    port := port b.path
    slots := fun q y hy => by
      have : (f b.path).slots[q.rank] = some y := hy
      rwa [slots] at this }

/-! ### The field line -/

theorem startCycle_tame : Tame a (startCycle x b) := by
  unfold startCycle
  dsimp only
  split <;> exact setField_tame h

theorem endCycle_tame {elapsed : Nat} : Tame a (endCycle x elapsed b) := by
  unfold endCycle
  dsimp only
  split
  · exact startCycle_tame (modField_tame (modField_tame h)) x
  · exact modField_tame h

theorem endExchange_tame {m : Fin 24} {elapsed : Nat} : Tame a (endExchange x m elapsed b) := by
  unfold endExchange
  dsimp only
  split
  · exact modField_tame (modModule_tame h)
  · exact endCycle_tame (modModule_tame h) x

theorem cycleExpiry_tame : Tame a (cycleExpiry x b) := by
  unfold cycleExpiry
  dsimp only
  split
  · exact startCycle_tame (modField_tame h) x
  · exact modField_tame (modField_tame h)

theorem handLoss_tame {m : Fin 24} : Tame a (handLoss x m b) := by
  unfold handLoss
  split
  · exact h.calm (stationLost_calm (.refl b) x)
  · exact h.calm (raiseAt_calm (.refl b) (.inl rfl))

theorem countMiss_tame {m : Fin 24} {r : MissReason} : Tame a (countMiss x m r b) := by
  unfold countMiss
  dsimp only
  split
  · split
    · exact handLoss_tame (modModule_tame (modModule_tame (modField_tame h))) x
    · exact modModule_tame (modModule_tame (modField_tame h))
  · exact modModule_tame (modField_tame h)

theorem takeFault_tame {m : Fin 24} {fault : Bool} : Tame a (takeFault m fault b) := by
  unfold takeFault
  dsimp only
  split
  · exact (modModule_tame h).calm (raise_calm (.refl _))
  · exact modModule_tame h

theorem takeItem_tame {m : Fin 24} {selector : Bool} {value : Nat} : Tame a (takeItem m selector value b) := by
  unfold takeItem
  dsimp only
  split
  · exact modModule_tame h
  · split
    · exact (modModule_tame h).calm (raise_calm (.refl _))
    · exact modModule_tame h

theorem handReply_tame {m : Fin 24} {r : GoodReply} : Tame a (handReply x m r b) := by
  unfold handReply
  split
  · split
    · split
      · exact h.calm (stationReply_calm (.refl b) x)
      · exact h
    · exact h
  · split
    · split
      · exact h.calm (modZone_calm (.refl b))
      · exact h
    · exact h

theorem goodReply_tame {m : Fin 24} {selector : Bool} {r : GoodReply} {item : Nat} :
    Tame a (goodReply x m selector r item b) := by
  unfold goodReply
  dsimp only
  split
  · exact handReply_tame (takeItem_tame (takeFault_tame (modModule_tame (modModule_tame h)))) x
  · exact takeItem_tame (takeFault_tame (modModule_tame h))

theorem judgeFrame_tame {e : Exchange} {bytes : List Byte} {framing : Bool} {elapsed : Nat} :
    Tame a (judgeFrame x e bytes framing elapsed b) := by
  unfold judgeFrame
  dsimp only
  split
  · exact endExchange_tame (goodReply_tame h x) x
  · exact endExchange_tame (countMiss_tame h x) x

theorem missExchange_tame {e : Exchange} {r : MissReason} {elapsed : Nat} : Tame a (missExchange x e r elapsed b) :=
  endExchange_tame (countMiss_tame h x) x

theorem sendCommand_tame {e : Exchange} : Tame a (sendCommand x e b) := by
  unfold sendCommand
  exact modField_tame h

/-! ### The host port -/

theorem withdrawStatus_tame : Tame a (b.modPath withdrawStatus) := by
  unfold Blocks.modPath withdrawStatus
  split
  · split
    · exact h.calm (withdraw_calm (.refl b))
    · exact h
  · exact h

theorem beginFreeze_tame : Tame a (beginFreeze b) := by
  unfold beginFreeze
  split
  · exact h
  · dsimp only
    split
    · exact modPath_tame (withdrawStatus_tame (modReport_tame h)) (fun _ _ _ => id) (fun _ => rfl)
    · exact modPath_tame h (fun _ _ _ => id) (fun _ => rfl)

theorem judgeFreeze_tame {y : HostAccess} : Tame a (judgeFreeze x y b) := by
  unfold judgeFreeze
  dsimp only
  split
  · exact beginFreeze_tame h
  · split
    · exact modPath_tame h (fun _ _ _ => id) (fun _ => rfl)
    · exact h

theorem takeAccess_tame {y : HostAccess} : Tame a (takeAccess x y b) := by
  unfold takeAccess holdAccess
  split
  · exact modPath_tame (modReport_tame (judgeFreeze_tame h x)) (fun _ _ _ => id) (fun _ => rfl)
  · exact modPath_tame (judgeFreeze_tame h x) (fun _ _ _ => id) (fun _ => rfl)

theorem endStall_tame : Tame a (b.modPath endStall) :=
  modPath_tame h (fun p _ _ => by unfold endStall; split <;> exact id) (fun p => by unfold endStall; split <;> rfl)

theorem countDrop_tame {w : CarriedWord} : Tame a (countDrop w b) := by
  rw [countDrop_path]
  exact modPath_tame (f := fun p => { p with dropped := if w.judged = .pass then p.dropped else inc32 p.dropped }) h
    (fun _ _ _ => id) (fun _ => rfl)

theorem nextWord_tame {w : CarriedWord} : Tame a (nextWord x w b) := by
  unfold nextWord
  split
  · exact modPath_tame h (fun _ _ _ => id) (fun _ => rfl)
  · exact modPath_tame h (fun _ _ _ e => by cases e) (fun _ => rfl)

theorem freePort_tame : Tame a (freePort b) := modPath_tame h (fun _ _ _ e => by cases e) (fun _ => rfl)

/-! ### The effects of host words -/

theorem planEffect_tame {w : CarriedWord} : Tame a (planEffect x w b) := by
  unfold planEffect
  split
  · exact h.calm (raise_calm (.refl b))
  · exact h.calm (planWord_calm (.refl b) x)
  · exact h

theorem mountEffect_tame {w : CarriedWord} : Tame a (mountEffect x w b) := by
  unfold mountEffect
  split
  · exact h.calm (applyImage_calm (.refl b))
  · exact h

theorem judgeRemount_tame {close : Word} : Tame a (judgeRemount x close b) := by
  unfold judgeRemount
  split
  · exact h.calm (refuseMount_calm (modStations_calm (.refl b)))
  · exact (modField_tame (h.calm (modStations_calm (.refl b)))).calm
      (evaluateWants_calm (supersedeUnmounted_calm (.refl _)) x)

theorem remountEffect_tame {w : CarriedWord} : Tame a (remountEffect x w b) := by
  unfold remountEffect
  split
  · exact judgeRemount_tame (mountEffect_tame h x) x
  · exact h

theorem trimEffect_tame {w : CarriedWord} : Tame a (trimEffect x w b) := by
  unfold trimEffect
  split
  · exact (mountEffect_tame h x).calm (takeTrim_calm (.refl _))
  · exact h

theorem pageEffect_tame {w : CarriedWord} : Tame a (pageEffect x w b) := by
  unfold pageEffect
  split
  · exact modReport_tame h
  · exact h

end Work

/-! ### Clear claims (R16) -/

/-- The entry that a clear claim leaves of a kind it names. -/
def clearedEntry (k : CauseKind) (stands : Bool) : Option Latched → Option Latched
  | none => none
  | some e => if stands then some ⟨if k = .moduleLost then .hold else e.level, e.source, 1⟩ else none

/-- What one named kind of a clear claim changes: the entry of the kind, the owed rewrite, and the oven where OVEN_VENT is
cleared. -/
theorem clearKind_eq (x : Ctx) (b : Blocks) (k : CauseKind) : ∃ owed, clearKind x b k =
    ((b.setCauses (b.causes.set k.number (clearedEntry k (standing x b k) (b.causes.entry k)))).setReport
      { b.report with rewriteOwed := owed }).setOven
        (if k = .ovenVent ∧ (b.causes.entry k).isSome = true then releaseVent b.oven else b.oven) := by
  unfold clearKind
  cases he : b.causes.entry k with
  | none =>
    have same : b.causes.set k.number none = b.causes := by
      have : b.causes[k.number] = none := he
      simp only [Fin.getElem_fin] at this
      rw [← this]
      simp
    refine ⟨b.report.rewriteOwed, ?_⟩
    simp only [clearedEntry, same, Option.isSome_none, Bool.false_eq_true, and_false, if_false]
    rfl
  | some e =>
    by_cases hs : standing x b k = true
    · have hk : k ≠ .ovenVent := by rintro rfl; cases hs
      simp only [clearedEntry, hs, if_true, hk, false_and, if_false]
      generalize (if k = .moduleLost then Level.hold else e.level) = level
      split
      · exact ⟨b.report.rewriteOwed, rfl⟩
      · exact ⟨true, rfl⟩
    · simp only [clearedEntry, hs, if_false, Bool.false_eq_true, Option.isSome_some, and_true]
      refine ⟨true, ?_⟩
      split <;> rfl

theorem clearedEntry_legal {k : CauseKind} {stands : Bool} {old : Option Latched}
    (h : ∀ e, old = some e → LegalEntry k e) : ∀ e, clearedEntry k stands old = some e → LegalEntry k e := by
  intro e he
  cases old with
  | none => cases he
  | some old =>
    cases stands with
    | false => cases he
    | true =>
      cases he
      refine ⟨⟨Nat.le_refl 1, (by decide : 1 ≤ 255)⟩, ?_⟩
      dsimp only
      split
      · rename_i hm
        exact .inl (by rw [hm]; rfl)
      · exact (h old rfl).2

/-- A legal entry set in a legal set. -/
theorem CauseSet.Legal.set {cs : CauseSet} (h : cs.Legal) {k : CauseKind} {old : Option Latched}
    (hold : ∀ e, old = some e → LegalEntry k e) : CauseSet.Legal (cs.set k.number old) := by
  intro j e he
  by_cases hj : j = k
  · subst hj
    rw [entry_set_self] at he
    exact hold e he
  · rw [entry_set_other _ _ _ _ hj] at he
    exact h j e he

theorem CauseSet.Clear.set {cs : CauseSet} (h : cs.Clear) {k : CauseKind} : CauseSet.Clear (cs.set k.number none) := by
  intro j
  by_cases hj : j = k
  · rw [hj, entry_set_self]
  · rw [entry_set_other _ _ _ _ hj]
    exact h j

theorem clearKind_causes (x : Ctx) (b : Blocks) (k : CauseKind) : (clearKind x b k).causes =
    b.causes.set k.number (clearedEntry k (standing x b k) (b.causes.entry k)) := by
  obtain ⟨owed, e⟩ := clearKind_eq x b k
  rw [e]
  rfl

theorem clearKind_tame {a b : Blocks} (h : Tame a b) (x : Ctx) {k : CauseKind} : Tame a (clearKind x b k) := by
  refine h.trans ?_
  have causes := clearKind_causes x b k
  obtain ⟨owed, e⟩ := clearKind_eq x b k
  exact {
    legal := fun legal => by rw [causes]; exact legal.set (clearedEntry_legal (legal k))
    clear := fun _ clear => by rw [causes, clear k]; exact clear.set
    part := by rw [e]; rfl
    arming := by rw [e]; rfl
    port := by rw [e]; exact fun _ _ => id
    slots := by rw [e]; exact fun _ _ => id }

theorem foldl_tame {ι : Type} {a : Blocks} {f : Blocks → ι → Blocks} (hf : ∀ b i, Tame a b → Tame a (f b i)) (l : List ι) :
    ∀ {b : Blocks}, Tame a b → Tame a (l.foldl f b) := by
  induction l with
  | nil => exact id
  | cons i l ih => exact fun h => ih (hf _ i h)

section Work
variable {a b : Blocks} (h : Tame a b) (x : Ctx)
include h

theorem acknowledgeEffect_tame {w : CarriedWord} : Tame a (acknowledgeEffect x w b) := by
  unfold acknowledgeEffect
  split
  · exact foldl_tame (fun _ _ h => clearKind_tame h x) _ (modReport_tame h)
  · exact h

/-! ### The completions of internal accesses -/

theorem recordDone_tame : Tame a (recordDone x b) := by
  unfold recordDone
  split
  · exact h
  · unfold fillStall
    split
    · exact endStall_tame (modReport_tame (modReport_tame h))
    all_goals exact modReport_tame h

theorem mapRead_tame {ws : List Word} : Tame a (mapRead x ws b) := by
  unfold mapRead
  split
  · exact h
  · dsimp only
    split
    · exact modRestart_tame (modReport_tame h) (fun _ => rfl) (fun _ => rfl)
    · exact modRestart_tame (modReport_tame h) (fun _ => rfl) (fun _ => rfl)

theorem snapshotClosed_tame : Tame a (b.modRestart (snapshotClosed x)) :=
  modRestart_tame h (fun r => by unfold snapshotClosed; dsimp only; split <;> rfl)
    (fun r => by unfold snapshotClosed; dsimp only; split <;> rfl)

end Work

end Sys2Proof.Machine
end

section
/-! What every step keeps: the range of P and H, the residue with the arming in progress, legal entries in the
cause set, and an empty set in an idle part. -/

namespace Sys2Proof.Machine

/-! ### The arming in progress and its accesses -/

/-- What an arming in progress has read: it is held only in ARMING, and past its anchor phase its anchor has passed its
checks. -/
def ReadingSound (r : Restart) : Prop :=
  ∀ a, r.arming = some a → (∃ f, r.part = .arming f) ∧ (a.phase ≠ .anchor → anchorFault a.anchor = none)

/-- The clauses of `ArmingSound`, by name. -/
structure Sound (r : Restart) (p : Path) : Prop where
  reading : ReadingSound r
  own : ∀ q x, p.slot q = some x → x.kind.requester = q
  alone : ∀ x, p.port = .internal x false → x.kind.requester = .restart → p.slot .restart = none
  served : ∀ x, p.slot .restart = some x ∨ p.port = .internal x false → x.kind = .mountRead ∨ x.kind = .snapshotRead →
    ∃ a, r.arming = some a ∧ a.phase ≠ .anchor

theorem armingSound_iff {s : State} : ArmingSound s ↔ Sound s.blk.restart s.blk.path :=
  ⟨fun ⟨reading, own, alone, served⟩ => ⟨reading, own, alone, served⟩,
    fun ⟨reading, own, alone, served⟩ => ⟨reading, own, alone, served⟩⟩

theorem ReadingSound.of_eq {r r' : Restart} (h : ReadingSound r) (part : r'.part = r.part)
    (arming : r'.arming = r.arming) : ReadingSound r' := fun a ha => by
  rw [part]
  exact h a (arming ▸ ha)

theorem ReadingSound.of_none {r : Restart} (h : r.arming = none) : ReadingSound r := fun a ha => by
  rw [h] at ha
  cases ha

/-- A path unit with no access of the restart unit, waiting or carried, suits every arming. -/
theorem Sound.of_quiet {r : Restart} {p : Path} (reading : ReadingSound r)
    (own : ∀ q x, p.slot q = some x → x.kind.requester = q) (slot : p.slot .restart = none)
    (port : ∀ x, p.port ≠ .internal x false) : Sound r p where
  reading := reading
  own := own
  alone := fun x hx => absurd hx (port x)
  served := fun x hx => by
    rcases hx with hx | hx
    · rw [slot] at hx; cases hx
    · exact absurd hx (port x)

/-- Fewer accesses, and the same arming. -/
theorem Sound.fewer {r r' : Restart} {p p' : Path} (h : Sound r p) (part : r'.part = r.part)
    (arming : r'.arming = r.arming) (port : ∀ x, p'.port = .internal x false → p.port = .internal x false)
    (slots : ∀ q x, p'.slot q = some x → p.slot q = some x) : Sound r' p' where
  reading := h.reading.of_eq part arming
  own := fun q x hx => h.own q x (slots q x hx)
  alone := fun x hx hr => by
    have none := h.alone x (port x hx) hr
    cases hs : p'.slot .restart with
    | none => rfl
    | some y => rw [slots _ _ hs] at none; cases none
  served := fun x hx hk => by
    obtain ⟨a, ha, hp⟩ := h.served x (hx.imp (slots _ x) (port x)) hk
    exact ⟨a, arming ▸ ha, hp⟩

theorem Tame.sound {a b : Blocks} (h : Tame a b) (k : Sound a.restart a.path) : Sound b.restart b.path :=
  k.fewer h.part h.arming (fun x => h.port x false) h.slots

/-! ### The end of a step -/

theorem rank_injective {q r : Requester} (h : q.rank = r.rank) : q = r := by
  cases q <;> cases r <;> first | rfl | exact absurd h (by decide)

theorem slot_set_same (p : Path) (r : Requester) (y : Option Access) :
    Path.slot { p with slots := p.slots.set r.rank y } r = y := by
  simp [Path.slot]

theorem slot_set_other (p : Path) {q r : Requester} (y : Option Access) (h : q ≠ r) :
    Path.slot { p with slots := p.slots.set r.rank y } q = p.slot q := by
  have : r.rank.val ≠ q.rank.val := fun e => h (rank_injective (Fin.ext e.symm))
  simp [Path.slot, this]

/-- An access suits the arming of a restart unit: one that reads the mount window or the snapshot belongs to an arming past
its anchor phase. -/
def Serves (r : Restart) (x : Access) : Prop :=
  x.kind = .mountRead ∨ x.kind = .snapshotRead → ∃ a, r.arming = some a ∧ a.phase ≠ .anchor

theorem requestIfFree_sound {q : Requester} {y : Option Access} {b : Blocks} (h : Sound b.restart b.path)
    (own : ∀ x, y = some x → x.kind.requester = q ∧ Serves b.restart x) :
    Sound (requestIfFree q y b).restart (requestIfFree q y b).path := by
  unfold requestIfFree
  cases y with
  | none => exact h
  | some x =>
    obtain ⟨hq, hs⟩ := own x rfl
    dsimp only
    split
    · exact h
    · rename_i free
      simp only [Path.outstanding, Bool.or_eq_true, Bool.not_eq_true, not_or, Option.isSome_eq_false_iff,
        Option.isNone_iff_eq_none] at free
      obtain ⟨_, idle⟩ := free
      subst hq
      have same := slot_set_same b.path x.kind.requester (some x)
      have other {r : Requester} (hr : r ≠ x.kind.requester) := slot_set_other b.path (some x) hr
      refine ⟨h.reading, fun r z hz => ?_, fun z hz hr => ?_, fun z hz hk => ?_⟩
      · by_cases hr : r = x.kind.requester
        · subst hr
          cases same.symm.trans hz
          rfl
        · exact h.own r z ((other hr).symm.trans hz)
      · by_cases hx : x.kind.requester = .restart
        · have hz : b.path.port = .internal z false := hz
          rw [hz] at idle
          simp [hr, hx] at idle
        · exact (other (Ne.symm hx)).trans (h.alone z hz hr)
      · rcases hz with hz | hz
        · by_cases hx : Requester.restart = x.kind.requester
          · rw [hx] at hz
            cases same.symm.trans hz
            exact hs hk
          · exact h.served z (.inl ((other hx).symm.trans hz)) hk
        · exact h.served z (.inr hz) hk

theorem restartAccess_serves {c : Anchor} {r : Restart} {x : Access} (h : restartAccess c r = some x) :
    x.kind.requester = .restart ∧ Serves r x := by
  unfold restartAccess at h
  split at h
  · cases h
  · cases h; exact ⟨rfl, fun hk => by rcases hk with hk | hk <;> cases hk⟩
  · cases h; exact ⟨rfl, fun hk => by rcases hk with hk | hk <;> cases hk⟩
  · cases ha : r.arming with
    | none => rw [ha] at h; cases h
    | some a =>
      rw [ha] at h
      simp only [Option.bind_some, armingAccess] at h
      split at h <;> rename_i hp <;> cases h
      · exact ⟨rfl, fun hk => by rcases hk with hk | hk <;> cases hk⟩
      · exact ⟨rfl, fun _ => ⟨a, ha, by simp [hp]⟩⟩
      · exact ⟨rfl, fun _ => ⟨a, ha, by simp [hp]⟩⟩
  · unfold snapshotAccess at h
    split at h
    · cases h; exact ⟨rfl, fun hk => by rcases hk with hk | hk <;> cases hk⟩
    · cases h
      simp only [Serves, writeAccess]
      split <;> exact ⟨rfl, fun hk => by rcases hk with hk | hk <;> cases hk⟩
    · cases h
  · cases hm : r.mapNext with
    | none => rw [hm] at h; cases h
    | some m =>
      rw [hm] at h
      cases h
      exact ⟨rfl, fun hk => by rcases hk with hk | hk <;> cases hk⟩

/-- An access of another requester reads neither the mount window nor the snapshot. -/
theorem serves_of_other {r : Restart} {x : Access} (h : x.kind.requester ≠ .restart) : Serves r x := fun hk => by
  rcases hk with hk | hk <;> exact absurd (by rw [hk]; rfl) h

theorem cacheAccess_requester {c : Anchor} {k : Cache} {x : Access} (h : cacheAccess c k = some x) :
    x.kind.requester = .cache := by
  simp only [cacheAccess, Option.map_eq_some_iff] at h
  obtain ⟨e, _, rfl⟩ := h
  rfl

theorem planAccess_requester {c : Anchor} {p : Plan} {x : Access} (h : planAccess c p = some x) :
    x.kind.requester = .plan := by
  unfold planAccess at h
  split at h <;> cases h <;> rfl

theorem reportAccess_requester {c : Anchor} {r : Report} {freeze : Bool} {x : Access}
    (h : reportAccess c r freeze = some x) : x.kind.requester = .report := by
  unfold reportAccess at h
  split at h
  · cases h
    simp only [writeAccess, recordKind]
    split <;> rfl
  · split at h
    · split at h <;> cases h
      rfl
    · cases h

theorem grantHost_sound {x : Ctx} {b : Blocks} {n : Nat} (h : Sound b.restart b.path) :
    Sound (grantHost x b n).restart (grantHost x b n).path := by
  unfold grantHost
  split
  · exact h.fewer rfl rfl (fun _ e => by cases e) (fun _ _ => id)
  · exact h

theorem grantInternal_sound {b : Blocks} {r : Requester} (h : Sound b.restart b.path) :
    Sound (grantInternal b r).restart (grantInternal b r).path := by
  unfold grantInternal
  split
  · rename_i y hy
    have fewer {q : Requester} {x : Access} (hx : (b.path.slots.set r.rank none)[q.rank] = some x) :
        b.path.slot q = some x := slot_of_emptied rfl hx
    refine ⟨h.reading, fun q x hx => h.own q x (fewer hx), fun x hx hr => ?_, fun x hx hk => ?_⟩
    · cases hx
      have : r = .restart := (h.own r y hy).symm.trans hr
      subst this
      exact slot_set_same b.path .restart none
    · rcases hx with hx | hx
      · exact h.served x (.inl (fewer hx)) hk
      · cases hx
        have : r = .restart := by
          rw [← h.own r y hy]
          rcases hk with hk | hk <;> rw [hk] <;> rfl
        exact h.served y (.inl (this ▸ hy)) hk
  · exact h

theorem grantAmong_sound {x : Ctx} {b : Blocks} {q : Requests} (h : Sound b.restart b.path) :
    Sound (grantAmong x b q).restart (grantAmong x b q).path := by
  unfold grantAmong
  split
  · exact grantHost_sound h
  · split
    · exact grantHost_sound h
    · exact grantInternal_sound h
  · exact grantInternal_sound h
  · exact h

theorem arbitrate_sound {x : Ctx} {w : Weigh} {b : Blocks} (h : Sound b.restart b.path) :
    Sound (arbitrate x w b).restart (arbitrate x w b).path := by
  unfold arbitrate
  split
  · exact grantAmong_sound h
  · exact h

/-- The capture of a snapshot write keeps the kind of the access that the port carries. -/
theorem captureAtGrant_sound {x : Ctx} {b : Blocks} (h : Sound b.restart b.path) :
    Sound (captureAtGrant x b).restart (captureAtGrant x b).path := by
  unfold captureAtGrant
  split
  · rename_i y hp _
    split
    · refine ⟨h.reading.of_eq rfl rfl, h.own, fun z hz hr => ?_, fun z hz hk => ?_⟩
      · cases hz
        exact h.alone y hp hr
      · rcases hz with hz | hz
        · exact h.served z (.inl hz) hk
        · cases hz
          exact h.served y (.inr hp) hk
    · exact h
  · exact h

theorem settle_sound {x : Ctx} {w : Weigh} {b : Blocks} (h : Sound b.restart b.path) :
    Sound (settle x w b).restart (settle x w b).path := by
  have restart : Sound (pumpRestart x b).restart (pumpRestart x b).path :=
    requestIfFree_sound h fun _ => restartAccess_serves
  have cache : Sound (pumpCache x (pumpRestart x b)).restart (pumpCache x (pumpRestart x b)).path :=
    requestIfFree_sound restart fun _ e =>
      ⟨cacheAccess_requester e, serves_of_other (by rw [cacheAccess_requester e]; decide)⟩
  generalize hc : pumpCache x (pumpRestart x b) = c at cache
  have plan : Sound (pumpPlan x c).restart (pumpPlan x c).path :=
    requestIfFree_sound (by simpa using cache) fun _ e =>
      ⟨planAccess_requester e, serves_of_other (by rw [planAccess_requester e]; decide)⟩
  have report : Sound (pumpReport x (pumpPlan x c)).restart (pumpReport x (pumpPlan x c)).path :=
    requestIfFree_sound (by simpa using plan) fun _ e =>
      ⟨reportAccess_requester e, serves_of_other (by rw [reportAccess_requester e]; decide)⟩
  unfold settle
  rw [hc]
  exact captureAtGrant_sound (arbitrate_sound report)

theorem settle_live (x : Ctx) (w : Weigh) (b : Blocks) : (settle x w b).live = b.live :=
  live_of_part (by rw [settle_restart])

/-! ### What every step keeps -/

/-- H is never below P, and both are 40-bit positions (R4, R5). -/
def PositionsInRange (m : Motion) : Prop := m.p ≤ m.h ∧ m.h < Config.positions

/-- The residue lies strictly between minus the divisor and the divisor (R2). -/
def ResidueInRange (c : Anchor) (m : Motion) : Prop := -(c.divisor : Int) < m.residue ∧ m.residue < c.divisor

/-- An idle part has nothing latched (R15, R17). -/
def IdleClear (b : Blocks) : Prop := b.live = false → b.causes.Clear

/-- From `s` to `t` the invariants of every step are kept. The residue's rests on the arming's: a divisor that comes into
force is that of an anchor which passed its checks. -/
structure Keeps (s t : State) : Prop where
  positions : PositionsInRange s.motion → PositionsInRange t.motion
  residue : ArmingSound s → ResidueInRange s.cfg s.motion → ResidueInRange t.cfg t.motion
  arming : ArmingSound s → ArmingSound t
  legal : s.blk.causes.Legal → t.blk.causes.Legal
  idle : IdleClear s.blk → IdleClear t.blk

theorem Keeps.refl (s : State) : Keeps s s := ⟨id, fun _ => id, id, id, id⟩

theorem Keeps.trans {s t u : State} (h : Keeps s t) (k : Keeps t u) : Keeps s u where
  positions := k.positions ∘ h.positions
  residue := fun ha hr => k.residue (h.arming ha) (h.residue ha hr)
  arming := k.arming ∘ h.arming
  legal := k.legal ∘ h.legal
  idle := k.idle ∘ h.idle

/-- A change of the blocks with a cause set and a restart unit that keep the invariants. -/
theorem Keeps.of_blocks {s t : State} (cfg : t.cfg = s.cfg) (motion : t.motion = s.motion)
    (arming : ArmingSound s → ArmingSound t) (legal : s.blk.causes.Legal → t.blk.causes.Legal)
    (idle : IdleClear s.blk → IdleClear t.blk) : Keeps s t where
  positions := motion ▸ id
  residue := fun _ => by rw [cfg, motion]; exact id
  arming := arming
  legal := legal
  idle := idle

theorem Tame.idle {a b : Blocks} (h : Tame a b) (k : IdleClear a) : IdleClear b := fun hl =>
  have live := h.live.symm.trans hl
  h.clear live (k live)

/-- Tame work keeps the invariants, whatever becomes of memory, the queue and the moments. -/
theorem Tame.keeps {s t : State} (h : Tame s.blk t.blk) (cfg : t.cfg = s.cfg) (motion : t.motion = s.motion) : Keeps s t :=
  .of_blocks cfg motion (fun k => armingSound_iff.mpr (h.sound (armingSound_iff.mp k))) h.legal h.idle

theorem settled_keeps (w : Weigh) (s : State) : Keeps s (s.settled w) :=
  .of_blocks rfl rfl (fun h => armingSound_iff.mpr (settle_sound (armingSound_iff.mp h)))
    (fun h => by simpa [State.settled] using h)
    (fun h hl => by simpa [State.settled] using h ((settle_live ..).symm.trans hl))

theorem decided_keeps (pre : Requests) (decision : Decision) (s : State) : Keeps s (s.decided pre decision) :=
  (settled_keeps _ s).trans (Tame.keeps (.refl _) rfl rfl)

theorem blockStep_keeps {f : Ctx → Blocks → Blocks} {s : State} (h : Tame s.blk (f s.ctx s.blk)) :
    Keeps s (blockStep f s) := (Tame.keeps (t := s.setBlk (f s.ctx s.blk)) h rfl rfl).trans (decided_keeps ..)

/-- A word's completion keeps the invariants where its effect does. -/
theorem completeWord_keeps {c : WordClass} {decision : Decision} {effect : Ctx → CarriedWord → Blocks → Blocks} {s : State}
    (h : ∀ w b, Tame s.blk b → Keeps s (s.setBlk (effect s.ctx w b))) : Keeps s (completeWord c decision effect s) := by
  cases hw : s.blk.path.carried with
  | none => rw [completeWord_other (by simp [hw])]; exact .refl s
  | some w =>
    by_cases hc : wordClass s.ctx s.blk w = c
    · have blocks : Tame s.blk (wordBlocks s w) := modPath_tame
        (f := fun p => { p with
          readData := p.readData ++ readWordOf w s.mem
          dropped := if w.judged = .pass then p.dropped else inc32 p.dropped })
        (.refl _) (fun _ _ _ => id) (fun _ => rfl)
      have moved : Keeps (s.setBlk (effect s.ctx w (wordBlocks s w)))
          ((s.setMem (carryWord w s.mem)).setBlk (nextWord s.ctx w (effect s.ctx w (wordBlocks s w)))) :=
        Tame.keeps (nextWord_tame (.refl _) _) rfl rfl
      rw [completeWord_eq hw hc]
      exact (h w _ blocks).trans (moved.trans (decided_keeps ..))
    · rw [completeWord_other (by simpa [hw] using hc)]; exact .refl s

theorem completeWord_keeps_tame {c : WordClass} {decision : Decision} {effect : Ctx → CarriedWord → Blocks → Blocks}
    {s : State} (h : ∀ x w b, Tame s.blk b → Tame s.blk (effect x w b)) : Keeps s (completeWord c decision effect s) :=
  completeWord_keeps fun w b hb => Tame.keeps (t := s.setBlk _) (h s.ctx w b hb) rfl rfl

/-- An access's completion keeps the invariants where its effect does, on the state with the port free. -/
theorem completeAccess_keeps {kinds : List AccessKind} {decision : Decision} {effect : List Word → State → State} {s : State}
    (h : ∀ a ws m, s.blk.path.port = .internal a false → a.kind ∈ kinds →
      Keeps s (effect ws ((s.setMem m).setBlk (freePort s.blk)))) : Keeps s (completeAccess kinds decision effect s) := by
  unfold completeAccess
  split
  · rename_i a abandoned hp
    split
    · rename_i hk
      refine Keeps.trans ?_ (decided_keeps ..)
      cases abandoned with
      | true => exact Tame.keeps (freePort_tame (.refl _)) rfl rfl
      | false => exact h a _ _ hp (by simpa using hk)
    · exact .refl s
  · exact .refl s
  · exact .refl s

theorem completeAccess_keeps_tame {kinds : List AccessKind} {decision : Decision} {f : Ctx → List Word → Blocks → Blocks}
    {s : State} (h : ∀ x ws b, Tame s.blk b → Tame s.blk (f x ws b)) :
    Keeps s (completeAccess kinds decision (onBlocks f) s) :=
  completeAccess_keeps fun _ _ _ _ _ => Tame.keeps (h _ _ _ (freePort_tame (.refl _))) rfl rfl

/-! ### The encoder -/

theorem takePulse_inRange {d : Nat} {r : Int} (h : -(d : Int) < r ∧ r < d) (v : Travel) :
    -(d : Int) < (takePulse d r v).1 ∧ (takePulse d r v).1 < d := by
  cases v <;> simp only [takePulse] <;> split <;> constructor <;> dsimp only <;> omega

/-- A move keeps P at most H, and both 40-bit. -/
theorem applyMove_inRange {m : Motion} (h : PositionsInRange m) (d : Travel) :
    PositionsInRange (applyMove (moveOf m d) m) := by
  obtain ⟨le, lt⟩ := h
  cases d with
  | fwd =>
    simp only [moveOf]
    split
    · exact ⟨le, lt⟩
    · split <;> constructor <;> simp only [applyMove] <;> omega
  | back =>
    simp only [moveOf]
    split
    · exact ⟨le, lt⟩
    · constructor <;> simp only [applyMove] <;> omega

theorem applyMove_residue (v : Move) (m : Motion) : (applyMove v m).residue = m.residue := by cases v <;> rfl

/-- A change of the motion unit with the positions and the residue in range. -/
theorem setMotion_keeps {s : State} {m : Motion} (positions : PositionsInRange s.motion → PositionsInRange m)
    (residue : ResidueInRange s.cfg s.motion → ResidueInRange s.cfg m) : Keeps s (s.setMotion m) where
  positions := positions
  residue := fun _ => residue
  arming := id
  legal := id
  idle := id

theorem unitEvent_keeps (order : List Taker) (d : Travel) (s : State) : Keeps s (unitEvent order d s) := by
  by_cases hl : s.blk.live = true
  · rw [unitEvent_live hl]
    refine Keeps.trans (setMotion_keeps (fun h => applyMove_inRange (m := eventMotion s.cfg.stopDetect d s.motion) h d)
      fun h => ?_) (Tame.keeps (handMove_calm (markMoved_calm (.refl _)) _).toTame rfl rfl)
    rw [ResidueInRange, applyMove_residue]
    exact h
  · rw [unitEvent_idle (by simpa using hl)]
    exact Keeps.trans (setMotion_keeps (m := eventMotion s.cfg.stopDetect d s.motion) id id)
      (Tame.keeps (markMoved_calm (.refl _)).toTame rfl rfl)

theorem pulse_keeps (order : List Taker) (d : Travel) (s : State) : Keeps s (pulse order d s) := by
  have residue : Keeps s (s.setMotion
      { s.motion with residue := (takePulse s.cfg.divisor s.motion.residue d).1 }) :=
    setMotion_keeps id fun h => takePulse_inRange h d
  unfold pulse
  dsimp only
  split
  · exact residue.trans ((unitEvent_keeps ..).trans (decided_keeps ..))
  · exact residue

theorem encoderPulse_keeps {encA encB : Bool} {order : List Taker} {s t : State}
    (h : execEncoderPulse encA encB order s = .next t) : Keeps s t := by
  unfold execEncoderPulse at h
  dsimp only at h
  have pair : Keeps s (s.setMotion { s.motion with encA := encA, encB := encB }) := setMotion_keeps id id
  split at h <;> cases h
  · exact .refl s
  · exact pair.trans (pulse_keeps ..)
  · exact pair.trans (pulse_keeps ..)
  · exact setMotion_keeps id id

/-! ### The restart unit -/

/-- The part state in which the track, the stations and the oven work (R3, R186): `Blocks.live` of a part state. -/
def PartState.live : PartState → Bool
  | .armed => true
  | .arming fromArmed => fromArmed
  | .dormant => false

theorem live_eq (b : Blocks) : b.live = b.restart.part.live := rfl

/-- A reset keeps the invariants, where the path unit it leaves holds no request and no access that is not abandoned. -/
theorem reset_keeps {s t : State} {encA encB : Bool} {p : Path} (cfg : t.cfg = .reset) (motion : t.motion = .reset encA encB)
    (blk : t.blk = resetBlocks p) (slots : ∀ q, p.slot q = none) (port : ∀ x, p.port ≠ .internal x false) : Keeps s t where
  positions := fun _ => by rw [motion]; exact ⟨Nat.le_refl 0, (by decide : 0 < Config.positions)⟩
  residue := fun _ _ => by
    rw [cfg, motion]
    exact ⟨(by decide : -((1 : Nat) : Int) < 0), (by decide : (0 : Int) < (1 : Nat))⟩
  arming := fun _ => by
    rw [armingSound_iff, blk]
    exact .of_quiet (.of_none rfl) (fun q x hx => by cases (slots q).symm.trans hx) (slots _) port
  legal := fun _ => by rw [blk]; exact CauseSet.reset_clear.legal
  idle := fun _ _ => by rw [blk]; exact CauseSet.reset_clear

theorem powerOn_keeps (encA encB : Bool) (s : State) : Keeps s (powerOn encA encB s) :=
  reset_keeps rfl rfl rfl (fun q => by cases q <;> rfl) (fun _ e => by cases e)

theorem resetPath_port (p : Path) (x : Access) : (resetPath p).port ≠ .internal x false := by
  unfold resetPath
  cases hp : p.port <;> simp

theorem lineReset_keeps (encA encB : Bool) (s : State) : Keeps s (lineReset encA encB s) :=
  reset_keeps rfl rfl rfl (fun q => by cases q <;> rfl) (resetPath_port _)

/-- A change of the restart unit alone keeps the invariants where it leaves the part as live as it was and its arming
suits the accesses. -/
theorem modRestart_keeps {s t : State} {b : Blocks} {f : Restart → Restart} (tame : Tame s.blk b)
    (ht : t.blk = b.modRestart f) (cfg : t.cfg = s.cfg) (motion : t.motion = s.motion)
    (live : (b.modRestart f).live = b.live) (sound : ArmingSound s → Sound (f b.restart) b.path) : Keeps s t :=
  .of_blocks cfg motion (fun h => by rw [armingSound_iff, ht]; exact sound h) (fun h => by rw [ht]; exact tame.legal h)
    (fun h hl => by rw [ht] at hl ⊢; exact tame.idle h (live ▸ hl))

/-- An accepted request begins the reading of the anchor where no arming was in progress, and so no access of one. -/
theorem acceptArming_sound {r : Restart} {p : Path} {fromArmed : Bool} {id : BitVec 16} (h : Sound r p)
    (idle : ∀ f, r.part ≠ .arming f) : Sound (acceptArming fromArmed id r) p where
  reading := fun a ha => by
    cases ha
    exact ⟨⟨fromArmed, rfl⟩, fun hp => absurd rfl hp⟩
  own := h.own
  alone := h.alone
  served := fun x hx hk => by
    obtain ⟨a, ha, _⟩ := h.served x hx hk
    obtain ⟨⟨f, hf⟩, _⟩ := h.reading a ha
    exact absurd hf (idle f)

theorem addWork_sound {r : Restart} {p : Path} {ws : List Work} (h : Sound r p) : Sound (addWork ws r) p :=
  h.fewer rfl rfl (fun _ => id) (fun _ _ => id)

/-- The restart unit at an arming request (R186, R188). -/
def requested (x : Ctx) (id : BitVec 16) (r : Restart) : Restart :=
  match r.part with
  | .dormant => acceptArming false id r
  | .armed => if x.motion.state = .halted then acceptArming true id r else addWork [.result .refusedBusy id] r
  | .arming _ => addWork [.result .refusedBusy id] r

theorem requestArming_eq (x : Ctx) (id : BitVec 16) (b : Blocks) :
    requestArming x id b = b.modRestart (requested x id) := rfl

theorem requested_sound {x : Ctx} {id : BitVec 16} {r : Restart} {p : Path} (h : Sound r p) :
    Sound (requested x id r) p := by
  unfold requested
  split
  · rename_i hp
    exact acceptArming_sound h (by simp [hp])
  · rename_i hp
    split
    · exact acceptArming_sound h (by simp [hp])
    · exact addWork_sound h
  · exact addWork_sound h

theorem requested_live (x : Ctx) (id : BitVec 16) (b : Blocks) : (b.modRestart (requested x id)).live = b.live := by
  show (requested x id b.restart).part.live = b.restart.part.live
  unfold requested
  split <;> rename_i hp
  · rw [hp]; rfl
  · split
    · rw [hp]; rfl
    · rfl
  · rfl

theorem armingEffect_keeps {s : State} {b : Blocks} (h : Tame s.blk b) (x : Ctx) (w : CarriedWord) :
    Keeps s (s.setBlk (armingEffect x w b)) := by
  unfold armingEffect
  split
  · exact modRestart_keeps h rfl rfl rfl (requested_live ..) fun k => requested_sound (h.sound (armingSound_iff.mp k))
  · exact Tame.keeps (t := s.setBlk b) h rfl rfl

theorem resultWritten_live (b : Blocks) : (b.modRestart resultWritten).live = b.live := by
  show (resultWritten b.restart).part.live = b.restart.part.live
  simp only [resultWritten]
  split
  · rename_i h
    rw [h.1]; rfl
  · rfl

/-- A result word written ends an arming's ARMING only where none is in progress. -/
theorem resultWritten_sound {r : Restart} {p : Path} (h : Sound r p) : Sound (resultWritten r) p := by
  simp only [resultWritten]
  split
  · rename_i ended
    exact {
      reading := .of_none ended.2.1
      own := h.own
      alone := h.alone
      served := h.served }
  · exact h.fewer rfl rfl (fun _ => id) (fun _ _ => id)

/-! ### The reading of an arming -/

/-- A state in which an access of the restart unit has just left the port: it holds no access of that unit. -/
structure Returned (s u : State) : Prop where
  cfg : u.cfg = s.cfg
  motion : u.motion = s.motion
  tame : Tame s.blk u.blk
  own : ArmingSound s → ∀ q x, u.blk.path.slot q = some x → x.kind.requester = q
  slot : ArmingSound s → u.blk.path.slot .restart = none
  port : ∀ x, u.blk.path.port ≠ .internal x false

theorem returned_of_port {s : State} {a : Access} {m : Memory} (hp : s.blk.path.port = .internal a false)
    (hr : a.kind.requester = .restart) : Returned s ((s.setMem m).setBlk (freePort s.blk)) where
  cfg := rfl
  motion := rfl
  tame := freePort_tame (.refl _)
  own := fun ⟨_, own, _⟩ => own
  slot := fun ⟨_, _, alone, _⟩ => alone a hp hr
  port := fun _ e => by cases e

theorem Returned.reading {s u : State} (h : Returned s u) (k : ArmingSound s) : ReadingSound u.blk.restart :=
  (h.tame.sound (armingSound_iff.mp k)).reading

/-- After an access of the restart unit, that unit may change its arming at will, where it stays as live. -/
theorem Returned.keeps {s u : State} (h : Returned s u) {f : Restart → Restart}
    (live : (u.blk.modRestart f).live = u.blk.live) (reading : ArmingSound s → ReadingSound (f u.blk.restart)) :
    Keeps s (u.setBlk (u.blk.modRestart f)) :=
  modRestart_keeps h.tame rfl h.cfg h.motion live fun k => .of_quiet (reading k) (h.own k) (h.slot k) h.port

/-- The restart unit after a refused arming (R189, R193, R194). -/
def refused (x : Ctx) (code : ResultCode) (id : BitVec 16) (r : Restart) : Restart :=
  let r' := endReading code id r
  match r.part with
  | .dormant | .arming false => r'
  | .armed | .arming true => backToArmed x r'

theorem refuseArming_eq (x : Ctx) (code : ResultCode) (id : BitVec 16) (b : Blocks) :
    refuseArming x code id b = b.modRestart (refused x code id) := rfl

theorem backToArmed_arming (x : Ctx) (r : Restart) :
    (backToArmed x r).part = .armed ∧ (backToArmed x r).arming = r.arming := by
  simp only [backToArmed]
  split <;> exact ⟨rfl, rfl⟩

theorem refused_arming (x : Ctx) (code : ResultCode) (id : BitVec 16) (r : Restart) :
    (refused x code id r).arming = none := by
  unfold refused
  dsimp only
  split
  · rfl
  · rfl
  · exact (backToArmed_arming ..).2
  · exact (backToArmed_arming ..).2

theorem refused_live (x : Ctx) (code : ResultCode) (id : BitVec 16) (b : Blocks) :
    (b.modRestart (refused x code id)).live = b.live := by
  show (refused x code id b.restart).part.live = b.restart.part.live
  unfold refused
  dsimp only
  split <;> rename_i hp
  · rfl
  · rfl
  · rw [(backToArmed_arming ..).1, hp]
  · rw [(backToArmed_arming ..).1, hp]; rfl

theorem Returned.refuse {s u : State} (h : Returned s u) (x : Ctx) (code : ResultCode) (id : BitVec 16) :
    Keeps s (u.setBlk (refuseArming x code id u.blk)) := by
  rw [refuseArming_eq]
  exact h.keeps (refused_live ..) fun _ => .of_none (refused_arming ..)

/-- A change of the arming in progress that keeps what it has read sound. -/
theorem Returned.modArming {s u : State} (h : Returned s u) {a a' : Arming} (ha : u.blk.restart.arming = some a)
    {moved : Bool}
    (sound : (a.phase ≠ .anchor → anchorFault a.anchor = none) → a'.phase ≠ .anchor → anchorFault a'.anchor = none) :
    Keeps s (u.setBlk (u.blk.modRestart fun r => { r with arming := some a', moved := moved })) :=
  h.keeps rfl fun k b hb => by
    cases hb
    obtain ⟨part, fault⟩ := h.reading k a ha
    exact ⟨part, sound fault⟩

theorem modArming_eq {f : Arming → Arming} {b : Blocks} {a : Arming} (ha : b.restart.arming = some a) :
    modArming f b = b.modRestart fun r => { r with arming := some (f a), moved := b.restart.moved } := by
  simp only [modArming, Blocks.modRestart, ha, Option.map_some]

/-- An anchor that passes its checks has its 64 words: its closing word is not 0 (R189). -/
theorem length_of_anchorFault {ws : List Word} (h : anchorFault ws = none) : 64 ≤ ws.length := by
  by_contra short
  have word : wordAt ws 63 = 0 := by simp [wordAt, List.getElem?_eq_none (show ws.length ≤ 63 by omega)]
  simp only [anchorFault, word] at h
  split at h
  · cases h
  · rw [if_pos (by decide)] at h
    cases h

/-- An anchor that passes its checks has a divisor (R189). -/
theorem divisor_of_anchorFault {ws : List Word} (h : anchorFault ws = none) : 1 ≤ (parseAnchor ws).divisor := by
  simp only [anchorFault] at h
  split at h
  · cases h
  split at h
  · cases h
  split at h
  · cases h
  split at h
  · cases h
  split at h
  · cases h
  · rename_i ok
    simp only [parametersOk, Bool.not_eq_true', Bool.not_eq_false, Bool.and_eq_true, decide_eq_true_eq] at ok
    omega

theorem anchorRead_keeps {s u : State} (h : Returned s u) (x : Ctx) (ws : List Word) :
    Keeps s (u.setBlk (anchorRead x ws u.blk)) := by
  unfold anchorRead
  split
  · exact Tame.keeps h.tame h.cfg h.motion
  · rename_i a ha
    dsimp only
    split
    · rename_i short
      rw [modArming_eq ha]
      refine h.modArming ha fun fault hp => ?_
      have := length_of_anchorFault (fault hp)
      simp only [List.length_append] at short
      omega
    · split
      · exact h.refuse ..
      · rename_i ok
        rw [modArming_eq ha]
        exact h.modArming ha fun _ _ => ok

/-! ### Arming results -/

/-- The path unit at an arming result: requests withdrawn, nothing carried anew. -/
theorem armPath_fewer (p : Path) :
    (armPath p).port = p.port ∧ ∀ q x, (armPath p).slot q = some x → p.slot q = some x := by
  have withdrawn (p : Path) (r : Requester) : (p.withdraw r).port = p.port := by
    obtain ⟨slots, run, e, _⟩ := withdraw_eq p r
    rw [e]
  refine ⟨?_, fun q x hx => slot_withdraw (slot_withdraw (slot_withdraw hx))⟩
  show (((p.withdraw .cache).withdraw .plan).withdraw .report).port = _
  rw [withdrawn, withdrawn, withdrawn]

/-- A state of an arming result: the anchor read in force, no residue, no arming in progress, the ports' accesses at most
as they were. -/
theorem Returned.result {s u t : State} (h : Returned s u) {a : Arming}
    (ok : ArmingSound s → anchorFault a.anchor = none) (cfg : t.cfg = parseAnchor a.anchor) (residue : t.motion.residue = 0)
    (positions : PositionsInRange t.motion) (arming : t.blk.restart.arming = none)
    (port : ∀ x, t.blk.path.port = .internal x false → u.blk.path.port = .internal x false)
    (slots : ∀ q x, t.blk.path.slot q = some x → u.blk.path.slot q = some x) (legal : t.blk.causes.Legal)
    (live : t.blk.live = true) : Keeps s t where
  positions := fun _ => positions
  residue := fun k _ => by
    have := divisor_of_anchorFault (ok k)
    rw [ResidueInRange, residue, cfg]
    omega
  arming := fun k => armingSound_iff.mpr <| .of_quiet (.of_none arming) (fun q x hx => h.own k q x (slots q x hx))
    (by
      cases hs : t.blk.path.slot .restart with
      | none => rfl
      | some x => rw [← h.slot k, slots _ _ hs])
    (fun x hx => h.port x (port x hx))
  legal := fun _ => legal
  idle := fun _ hl => by rw [live] at hl; cases hl

theorem coldResult_keeps {s u : State} (h : Returned s u) {code : ResultCode} {a : Arming}
    (ok : ArmingSound s → anchorFault a.anchor = none) : Keeps s (coldResult code a u) := by
  have tame : Tame (coldBlocks (parseAnchor a.anchor) code a u.blk) (coldResult code a u).blk :=
    startCycle_tame (Tame.calm (.refl _) (modTrack_calm (.refl _))) _
  obtain ⟨port, slots⟩ := armPath_fewer u.blk.path
  exact h.result ok rfl rfl ⟨Nat.le_refl 0, (by decide : 0 < Config.positions)⟩ tame.arming
    (fun x hx => port ▸ tame.port x false hx) (fun q x hx => slots q x (tame.slots q x hx))
    (tame.legal CauseSet.reset_clear.legal) tame.live

theorem placeStations_calm {a b : Blocks} (h : Calm a b) (x : Ctx) : Calm a (placeStations x b) :=
  foldl_calm (fun _ _ h => modStation_calm h) _ h

theorem raiseBacklog_calm {a b : Blocks} (h : Calm a b) : Calm a (raiseBacklog b) := by
  unfold raiseBacklog
  split
  · exact raise_calm h
  · exact h

/-- The position that a warm arming takes up is a 40-bit one (R194). -/
theorem position_of_snapshotValid {c : Anchor} {ws : List Word} (h : snapshotValid c ws = true) :
    (((decodeSnapshot ws).h : Int) + c.restartCorrection).toNat < Config.positions := by
  simp only [snapshotValid, Bool.and_eq_true, decide_eq_true_eq] at h
  omega

/-- What the blocks take up at a warm arming result. -/
def warmCtx (d : SnapshotData) (a : Arming) (s : State) : Ctx :=
  ⟨parseAnchor a.anchor, s.motion.warmArmed ((d.h : Int) + (parseAnchor a.anchor).restartCorrection).toNat⟩

theorem warmResult_eq (d : SnapshotData) (a : Arming) (s : State) : warmResult d a s =
    let x := warmCtx d a s
    ((s.setCfg x.cfg).setMotion x.motion).setBlk (startCycle x (restoreClaims (raiseBacklog (restoreProbes x
      (placeStations x (warmBlocks x d a s.blk)))))) := rfl

theorem warmed_tame (x : Ctx) (b : Blocks) :
    Tame b (startCycle x (restoreClaims (raiseBacklog (restoreProbes x (placeStations x b))))) :=
  startCycle_tame (restoreClaims_calm (raiseBacklog_calm (restoreProbes_calm (placeStations_calm (.refl b) x) x))).toTame x

theorem warmResult_keeps {s u : State} (h : Returned s u) {d : SnapshotData} {a : Arming}
    (ok : ArmingSound s → anchorFault a.anchor = none)
    (hd : ((d.h : Int) + (parseAnchor a.anchor).restartCorrection).toNat < Config.positions) :
    Keeps s (warmResult d a u) := by
  have tame := warmed_tame (warmCtx d a u) (warmBlocks (warmCtx d a u) d a u.blk)
  obtain ⟨port, slots⟩ := armPath_fewer u.blk.path
  rw [warmResult_eq]
  dsimp only
  refine h.result ok rfl rfl ⟨Nat.le_refl _, hd⟩ ?_ ?_ ?_ ?_ ?_ <;> simp only [State.setBlk_blk]
  · exact tame.arming
  · exact fun x hx => port ▸ tame.port x false hx
  · exact fun q x hx => slots q x (tame.slots q x hx)
  · exact tame.legal CauseSet.reset_clear.legal
  · exact tame.live

/-- An arming whose mount window or snapshot has just been read is past its anchor phase. -/
theorem passed_of_read {s u : State} (h : Returned s u) {x : Access} (hp : s.blk.path.port = .internal x false)
    (hk : x.kind = .mountRead ∨ x.kind = .snapshotRead) {a : Arming} (ha : u.blk.restart.arming = some a)
    (k : ArmingSound s) : anchorFault a.anchor = none := by
  have sound := armingSound_iff.mp k
  obtain ⟨b, hb, phase⟩ := sound.served x (.inr hp) hk
  rw [← h.tame.arming, ha] at hb
  cases hb
  exact (sound.reading a (h.tame.arming ▸ ha)).2 phase

theorem mountRead_keeps {s u : State} (h : Returned s u) {x : Access} (hp : s.blk.path.port = .internal x false)
    (hk : x.kind = .mountRead) (ws : List Word) : Keeps s (mountRead ws u) := by
  unfold mountRead
  split
  · exact Tame.keeps h.tame h.cfg h.motion
  · rename_i a ha
    have ok := passed_of_read h hp (.inl hk) ha
    dsimp only
    split
    · rw [modArming_eq ha]
      exact h.modArming ha fun fault => fault
    · unfold mountDone
      split
      · exact h.refuse ..
      · split
        · exact coldResult_keeps h ok
        · split
          · exact h.refuse ..
          · rw [modArming_eq ha]
            refine modRestart_keeps (f := fun r => { r with
              arming := some { a with mount := a.mount ++ ws, phase := .snapshot }, moved := false }) h.tame rfl h.cfg h.motion
              rfl fun k => .of_quiet ?_ (h.own k) (h.slot k) h.port
            intro b hb
            cases hb
            exact ⟨(h.reading k a ha).1, fun _ => ok k⟩

theorem snapshotRead_keeps {s u : State} (h : Returned s u) {x : Access} (hp : s.blk.path.port = .internal x false)
    (hk : x.kind = .snapshotRead) (ws : List Word) : Keeps s (snapshotRead ws u) := by
  unfold snapshotRead
  split
  · exact Tame.keeps h.tame h.cfg h.motion
  · rename_i a ha
    have ok := passed_of_read h hp (.inr hk) ha
    dsimp only
    split
    · rw [modArming_eq ha]
      exact h.modArming ha fun fault => fault
    · split
      · exact h.refuse ..
      · split
        · rename_i valid
          exact warmResult_keeps h ok (position_of_snapshotValid valid)
        · exact coldResult_keeps h ok

/-! ### Every command -/

/-- Every command keeps the invariants. -/
theorem exec_keeps (c : Instr) (s t : State) (h : exec c s = .next t) : Keeps s t := by
  cases c <;>
    simp only [exec, execSpeedIntervalExpiry, execMarkPulseExpiry, execStopDetectExpiry, execSeamEdge, execLiftTimerExpiry,
      execAccountingTimerExpiry, execCycleTimerExpiry, execExchangeQuietReached, execQuietWaitTimeout, execCommandFrameSent,
      execReplyFirstCharacter, execReplyTimerExpiry, execStallTimerExpiry, execStatusTimerExpiry] at h
  case encoderPulse => exact encoderPulse_keeps h
  case stopDetectExpiry =>
    split at h <;> cases h
    · exact .refl s
    · have halted : Keeps s (s.setMotion { s.motion with state := .halted, stopTimer := none }) := setMotion_keeps id id
      revert halted
      generalize s.setMotion _ = u
      intro halted
      have triggered : Keeps u (u.setBlk (trigger u.ctx u.blk)) := Tame.keeps (trigger_calm (.refl _) _).toTame rfl rfl
      exact halted.trans (triggered.trans (decided_keeps ..))
  case speedIntervalExpiry => cases h; exact setMotion_keeps id id
  case seamEdge =>
    split at h <;> cases h
    · exact blockStep_keeps (activeEdge_calm (.refl _) _).toTame
    · exact .refl s
  case markPulseExpiry =>
    cases h
    exact Tame.keeps (modCues_calm (f := fun q => { q with markPulse := false }) (.refl s.blk)).toTame rfl rfl
  case liftTimerExpiry =>
    split at h <;> cases h
    · exact .refl s
    · exact blockStep_keeps (liftExpiry_calm (.refl _) _).toTame
  case accountingTimerExpiry =>
    split at h <;> cases h
    · exact blockStep_keeps (accountingTick_calm (.refl _) _).toTame
    · exact .refl s
  case cycleTimerExpiry =>
    split at h <;> cases h
    · exact .refl s
    · exact blockStep_keeps (cycleExpiry_tame (.refl _) _)
  case exchangeQuietReached =>
    split at h <;> cases h
    · exact blockStep_keeps (sendCommand_tame (.refl _) _)
    · exact .refl s
  case quietWaitTimeout =>
    split at h <;> cases h
    · exact .refl s
    · exact blockStep_keeps (missExchange_tame (.refl _) _)
  case commandFrameSent =>
    split at h <;> cases h
    · exact blockStep_keeps (modField_tame (.refl _))
    · exact .refl s
  case replyFirstCharacter =>
    split at h <;> cases h
    · exact .refl s
    · exact blockStep_keeps (modField_tame (.refl _))
  case replyTimerExpiry =>
    split at h <;> cases h
    · exact .refl s
    · exact blockStep_keeps (missExchange_tame (modField_tame (.refl _)) _)
  case frameClosed =>
    unfold execFrameClosed at h
    split at h
    · split at h <;> cases h
      · exact blockStep_keeps (judgeFrame_tame (.refl _) _)
      · exact blockStep_keeps (modField_tame (.refl _))
    · cases h; exact .refl s
  case stallTimerExpiry =>
    split at h <;> cases h
    · exact .refl s
    · exact blockStep_keeps (endStall_tame (modReport_tame (.refl _)))
  case statusTimerExpiry =>
    split at h <;> cases h
    · exact .refl s
    · exact blockStep_keeps (modReport_tame (.refl _))
  case hostAccessPresented =>
    unfold execHostAccessPresented at h
    split at h
    · cases h
    · split at h <;> cases h
      · exact blockStep_keeps (takeAccess_tame (.refl _) _)
      · exact .refl s
  case planWrite => cases h; exact completeWord_keeps_tame fun x _ _ h => planEffect_tame h x
  case settingsWrite => cases h; exact completeWord_keeps_tame fun x _ b h => h.calm (recordWritten_calm (.refl b) x)
  case mountWrite => cases h; exact completeWord_keeps_tame fun x _ _ h => mountEffect_tame h x
  case remountRequest => cases h; exact completeWord_keeps_tame fun x _ _ h => remountEffect_tame h x
  case trim => cases h; exact completeWord_keeps_tame fun x _ _ h => trimEffect_tame h x
  case outcomeSlotFree => cases h; exact completeWord_keeps_tame fun _ _ _ h => modReport_tame h
  case acknowledge => cases h; exact completeWord_keeps_tame fun x _ _ h => acknowledgeEffect_tame h x
  case pageSelect => cases h; exact completeWord_keeps_tame fun x _ _ h => pageEffect_tame h x
  case hostWordComplete | snapshotWindowWrite => cases h; exact completeWord_keeps_tame fun _ _ _ h => h
  case planReadReturned => cases h; exact completeAccess_keeps_tame fun x _ b h => h.calm (planReadDone_calm (.refl b) x)
  case freeingWriteComplete => cases h; exact completeAccess_keeps_tame fun x _ b h => h.calm (freeingDone_calm (.refl b) x)
  case settingBurstReturned => cases h; exact completeAccess_keeps_tame fun x _ b h => h.calm (fetchBurst_calm (.refl b) x)
  case recordBurstComplete | statusBurstComplete => cases h; exact completeAccess_keeps_tame fun _ _ _ h => modReport_tame h
  case recordWord0Complete => cases h; exact completeAccess_keeps_tame fun x _ _ h => recordDone_tame h x
  case outcomeMapReadReturned => cases h; exact completeAccess_keeps_tame fun x _ _ h => mapRead_tame h x
  case snapshotBurstComplete =>
    cases h; exact completeAccess_keeps_tame fun _ _ _ h => modRestart_tame h (fun _ => rfl) (fun _ => rfl)
  case snapshotClosingComplete => cases h; exact completeAccess_keeps_tame fun x _ _ h => snapshotClosed_tame h x
  case powerOnReset => cases h; exact powerOn_keeps ..
  case resetLine => cases h; exact (lineReset_keeps ..).trans (settled_keeps ..)
  case armingRequest => cases h; exact completeWord_keeps fun w b hb => armingEffect_keeps hb s.ctx w
  case resultWordWritten =>
    cases h
    refine completeAccess_keeps fun a ws m _ _ => ?_
    have free := freePort_tame (.refl s.blk)
    exact modRestart_keeps free rfl rfl rfl (resultWritten_live _)
      fun h => resultWritten_sound (free.sound (armingSound_iff.mp h))
  case anchorBurstReturned =>
    cases h
    refine completeAccess_keeps fun a ws m hp hk => anchorRead_keeps (returned_of_port hp ?_) _ _
    rw [List.mem_singleton.mp hk]; rfl
  case mountBurstReturned =>
    cases h
    refine completeAccess_keeps fun a ws m hp hk => ?_
    have kind := List.mem_singleton.mp hk
    exact mountRead_keeps (returned_of_port hp (by rw [kind]; rfl)) hp kind ws
  case snapshotReadReturned =>
    cases h
    refine completeAccess_keeps fun a ws m hp hk => ?_
    have kind := List.mem_singleton.mp hk
    exact snapshotRead_keeps (returned_of_port hp (by rw [kind]; rfl)) hp kind ws

/-- Every step keeps the invariants. -/
theorem step_keeps {s t : State} (h : step s = .next t) : Keeps s t := by
  unfold step at h
  split at h
  · cases h; exact .refl s
  · rename_i c rest _
    have queued : Keeps s (s.setPending rest) := Tame.keeps (.refl s.blk) rfl rfl
    exact queued.trans (exec_keeps _ _ _ h)

/-- Settles O6: every step keeps the range of the positions. -/
theorem positionsStayInRange : Obligations.PositionsStayInRange := fun _ _ h hs => (step_keeps hs).positions h

/-- Settles O7: every step keeps the arming in progress sound, and with it the residue below the divisor in force. -/
theorem residueStaysBelowDivisor : Obligations.ResidueStaysBelowDivisor := fun _ _ ⟨residue, arming⟩ hs =>
  ⟨(step_keeps hs).residue arming residue, (step_keeps hs).arming arming⟩

/-- Settles O10: every step keeps the entries of the cause set legal. -/
theorem latchedEntriesStayLegal : Obligations.LatchedEntriesStayLegal := fun _ _ h hs => (step_keeps hs).legal h

/-- Settles O11: every step keeps the cause set of an idle part empty. -/
theorem dormantSetStaysEmpty : Obligations.DormantSetStaysEmpty := fun _ _ h hs => (step_keeps hs).idle h

end Sys2Proof.Machine
end

section
/-! The values at reset, the two resets, and the unit events of the motion unit. -/

namespace Sys2Proof.Machine

/-! ### Reset -/

/-- Settles O3: the reset values, block by block. -/
theorem resetValues : Obligations.ResetValues := by
  refine ⟨⟨rfl, rfl, rfl, rfl⟩, fun _ _ => rfl, rfl, ⟨CauseSet.reset_clear, ?_, ?_, rfl, rfl, rfl⟩, rfl, rfl, ⟨?_, rfl⟩, rfl,
    ⟨?_, ?_, rfl⟩, ⟨?_, rfl⟩, ⟨?_, ?_, ?_, rfl⟩, rfl, rfl, rfl⟩
  · decide
  · decide
  all_goals
    intro i
    simp [State.reset, Blocks.reset, Cache.reset, CacheEntry.clear, Stations.reset, Station.reset, MountRecord.unmounted,
      Oven.reset, FieldLine.reset, Module.reset]

/-- Settles O13: the invariants hold at reset; the arming's clauses as after a power-on reset. -/
theorem invariantsHoldAtReset : Obligations.InvariantsHoldAtReset := by
  have clear : State.reset.blk.causes.Clear := CauseSet.reset_clear
  have sound : ArmingSound State.reset :=
    armingSound_iff.mpr (.of_quiet (.of_none rfl) (fun q x hx => by cases q <;> cases hx) rfl (fun _ e => by cases e))
  have cues : State.reset.blk.cues.queue = [] := rfl
  exact ⟨rfl, by decide, ⟨by decide, sound⟩, by simp [cues], by decide, by decide, by decide, clear.legal, fun _ => clear,
    by decide⟩

/-- At a reset no block begins anything: of the end of the step the grant decision is left. -/
theorem settle_reset (x : Ctx) (w : Weigh) (p : Path) :
    settle x w (resetBlocks p) = captureAtGrant x (arbitrate x w (resetBlocks p)) := rfl

/-- In an idle part no window but ANCHOR is in the table, and no word is dropped (R174, R175). -/
theorem judgeWord_idle {b : Blocks} (h : b.live = false) (x : Ctx) (y : HostAccess) (i : Nat) :
    judgeWord x b y i = .pass := by
  unfold judgeWord
  split
  · rfl
  · split
    · rfl
    · simp only [windowOf, h, Bool.false_eq_true, if_false]
      by_cases ha : hostWordAt y i < 64 <;> simp [ha]

theorem captureAtGrant_other {b : Blocks} (x : Ctx) (h : ∀ a, b.path.port ≠ .internal a false) :
    captureAtGrant x b = b := by
  unfold captureAtGrant
  split
  · rename_i a hp _
    exact absurd hp (h a)
  · rfl

/-- A grant decision with no internal request grants a host access that waits, where the port is free. -/
theorem arbitrate_no_internal {b : Blocks} (x : Ctx) (h : b.path.waiting = []) :
    arbitrate x .all b = if b.path.port = .free then grantHost x b b.path.hostRun else b := by
  unfold arbitrate
  cases hp : b.path.port with
  | free =>
    simp only [Path.weighed, Path.requests, h, if_true]
    cases hh : b.path.host <;> simp [grantAmong, grantHost, hh]
  | host => rfl
  | internal y i => rfl

/-- The path unit after the end of a step at the RESET line: a host access that waits is granted where the port is free. -/
theorem settle_resetPath (x : Ctx) (p : Path) : (settle x .all (resetBlocks (resetPath p))).path =
    if p.port = .free then (grantHost x (resetBlocks (resetPath p)) 0).path else resetPath p := by
  have idle : (resetBlocks (resetPath p)).path.waiting = [] := rfl
  have free : (resetBlocks (resetPath p)).path.port = .free ↔ p.port = .free := by
    show (resetPath p).port = .free ↔ _
    unfold resetPath
    cases p.port <;> simp
  rw [settle_reset, arbitrate_no_internal x idle]
  by_cases h : p.port = .free
  · rw [if_pos (free.mpr h), if_pos h, captureAtGrant_other]
    · rfl
    · unfold grantHost
      split
      · intro a e; cases e
      · intro a e; rw [free.mpr h] at e; cases e
  · rw [if_neg (mt free.mp h), if_neg h, captureAtGrant_other _ (resetPath_port p)]
    rfl

/-- What the end of a step leaves of the ports at the RESET line: an internal access that is carried stays, abandoned; a
host access that is neither stalled nor waiting stays; another waits or is carried (R184). -/
theorem lineReset_ports (x : Ctx) (p : Path) :
    let q := (settle x .all (resetBlocks (resetPath p))).path
    q.slots = .replicate 4 none ∧
      (∀ y i, p.port = .internal y i → q.port = .internal y true) ∧
      ((∀ y, p.host ≠ .stalled y ∧ p.host ≠ .portWait y) → q.host = p.host) ∧
      ∀ y, p.host = .stalled y ∨ p.host = .portWait y → q.host = .portWait y ∨ q.host = .carrying y 0 .pass := by
  have pass (y : HostAccess) : judgeWord x (resetBlocks (resetPath p)) y 0 = .pass := judgeWord_idle rfl x y 0
  have path : (resetBlocks (resetPath p)).path = resetPath p := rfl
  have waits {y : HostAccess} (h : p.host = .stalled y ∨ p.host = .portWait y) : (resetPath p).host = .portWait y := by
    rcases h with h | h <;> simp [resetPath, h]
  have stays (h : ∀ y, p.host ≠ .stalled y ∧ p.host ≠ .portWait y) : (resetPath p).host = p.host := by
    unfold resetPath
    dsimp only
    split
    · rename_i y hy
      exact absurd hy (h y).1
    · rfl
  intro q
  have hq : q = _ := settle_resetPath x p
  by_cases free : p.port = .free
  · rw [if_pos free, grantHost, path] at hq
    split at hq
    · rename_i y hy
      rw [hq]
      refine ⟨rfl, fun z i hz => by simp [free] at hz, fun h => ?_, fun z hz => ?_⟩
      · rw [stays h] at hy
        exact absurd hy (h y).2
      · cases (waits hz).symm.trans hy
        exact .inr (by rw [Blocks.setPath_path, pass])
    · rename_i h
      rw [hq]
      exact ⟨rfl, fun z i hz => by simp [free] at hz, stays, fun z hz => .inl (waits hz)⟩
  · rw [if_neg free] at hq
    rw [hq]
    exact ⟨rfl, fun y i hy => by simp [resetPath, hy], stays, fun y hy => .inl (waits hy)⟩

/-- Settles O4: the end of the step at a reset leaves the reset values, and the ports as the grant decision leaves them. -/
theorem resetsReturnToDormant : Obligations.ResetsReturnToDormant := by
  refine ⟨fun _ _ _ => rfl, fun a b s => ⟨_, rfl, ?_⟩⟩
  obtain ⟨blocks, freeze, dropped, _⟩ := settled_follows .all (lineReset a b s)
  obtain ⟨slots, internal, stays, waits⟩ := lineReset_ports (lineReset a b s).ctx s.blk.path
  have idle : ((lineReset a b s).settled .all).blk.live = false := settle_live ..
  refine ⟨blocks, freeze, dropped, slots, internal, stays, fun y hy => ?_⟩
  rw [judgeWord_idle idle]
  exact waits y hy

/-! ### Unit events -/

/-- The state at a pulse that gives a unit event: the new levels of the pair, and no residue. -/
def eventState (q : Bool × Bool) (s : State) : State :=
  (withPair q s).setMotion { (withPair q s).motion with residue := 0 }

/-- The levels of the pair after a forward pulse, and after a backward one (R1). -/
abbrev forwardPair (s : State) : Bool × Bool := nextPair (s.motion.encA, s.motion.encB)
abbrev backwardPair (s : State) : Bool × Bool := nextPair (nextPair (nextPair (s.motion.encA, s.motion.encB)))

/-- A forward pulse that gives a unit event. -/
theorem exec_forward_event {s : State} (h : s.motion.residue + 1 = s.cfg.divisor) (order : List Taker) :
    exec (.encoderPulse (forwardPair s).1 (forwardPair s).2 order) s =
      .next ((unitEvent order .fwd (eventState (forwardPair s) s)).decided s.blk.path.requests .withNew) := by
  rw [exec_forward, pulse_event (s := withPair _ s) (takePulse_forward_event h)]
  rfl

/-- A backward pulse that gives a unit event. -/
theorem exec_backward_event {s : State} (h : s.motion.residue - 1 = -(s.cfg.divisor : Int)) (order : List Taker) :
    exec (.encoderPulse (backwardPair s).1 (backwardPair s).2 order) s =
      .next ((unitEvent order .back (eventState (backwardPair s) s)).decided s.blk.path.requests .withNew) := by
  rw [exec_backward, pulse_event (s := withPair _ s) (takePulse_backward_event h)]
  rfl

theorem moveOf_advance {m : Motion} (h : m.p = m.h) (below : m.p + 1 < Config.positions) : moveOf m .fwd = .advance := by
  rw [moveOf, if_neg (by omega), if_pos (by omega)]

theorem moveOf_return {m : Motion} (h : m.p < m.h) (below : m.p + 1 < Config.positions) : moveOf m .fwd = .ret := by
  rw [moveOf, if_neg (by omega), if_neg (by omega)]

theorem moveOf_lostForward {m : Motion} (h : m.p + 1 = Config.positions) : moveOf m .fwd = .lostForward := by
  rw [moveOf, if_pos (by omega)]

theorem moveOf_back {m : Motion} (h : 0 < m.p) : moveOf m .back = .back := by rw [moveOf, if_neg (by omega)]

theorem moveOf_lostBackward {m : Motion} (h : m.p = 0) : moveOf m .back = .lostBackward := by rw [moveOf, if_pos h]

/-- Settles O17: a step error counts, a pulse short of a unit event moves the residue, and a unit event of an idle part
does what the motion unit does in every part state. -/
theorem pulsesAndIdleUnitEvents : Obligations.PulsesAndIdleUnitEvents := by
  refine ⟨fun s order => ⟨?_, fun quiet => ?_, fun quiet => ?_⟩, fun s order idle => ⟨fun event => ?_, fun event => ?_⟩⟩
  · simp only [exec, execEncoderPulse, decode_opposite]
    rfl
  · rw [exec_forward, pulse_quiet (s := withPair _ s) (takePulse_forward_quiet quiet)]
    rfl
  · rw [exec_backward, pulse_quiet (s := withPair _ s) (takePulse_backward_quiet quiet)]
    rfl
  · refine ⟨_, exec_forward_event event order, ?_⟩
    rw [unitEvent_idle (s := eventState _ s) idle]
    exact decided_follows ..
  · refine ⟨_, exec_backward_event event order, ?_⟩
    rw [unitEvent_idle (s := eventState _ s) idle]
    exact decided_follows ..

/-- A forward unit event of a part that tracks. -/
theorem forward_follows {s : State} (live : s.blk.live = true) (event : s.motion.residue + 1 = s.cfg.divisor)
    (order : List Taker) {v : Move} {m : Motion} (hv : moveOf (afterForward s) .fwd = v)
    (hm : applyMove v (afterForward s) = m) :
    ∃ t, exec (.encoderPulse (forwardPair s).1 (forwardPair s).2 order) s = .next t ∧
      FollowsFrom ((s.setMotion m).setBlk
        (handMove ⟨s.cfg, m⟩ (decide (s.motion.state ≠ .advancing)) order v (markMoved s.blk))) t := by
  subst hv hm
  refine ⟨_, exec_forward_event event order, ?_⟩
  have entering : decide (s.motion.state ≠ .advancing) = decide (Travel.fwd = .fwd ∧ s.motion.state ≠ .advancing) := by
    simp
  have h := decided_follows s.blk.path.requests .withNew (unitEvent order .fwd (eventState (forwardPair s) s))
  rw [unitEvent_live (s := eventState _ s) live] at h ⊢
  rw [entering]
  exact h

/-- A backward unit event of a part that tracks. -/
theorem backward_follows {s : State} (live : s.blk.live = true) (event : s.motion.residue - 1 = -(s.cfg.divisor : Int))
    (order : List Taker) {v : Move} {m : Motion} (hv : moveOf (afterBackward s) .back = v)
    (hm : applyMove v (afterBackward s) = m) :
    ∃ t, exec (.encoderPulse (backwardPair s).1 (backwardPair s).2 order) s = .next t ∧
      FollowsFrom ((s.setMotion m).setBlk (handMove ⟨s.cfg, m⟩ false order v (markMoved s.blk))) t := by
  subst hv hm
  refine ⟨_, exec_backward_event event order, ?_⟩
  have h := decided_follows s.blk.path.requests .withNew (unitEvent order .back (eventState (backwardPair s) s))
  rw [unitEvent_live (s := eventState _ s) live] at h ⊢
  exact h

/-- Settles O18: the takers of an H advance leave the field line, the freeze, the dropped count, the part state and the
generation. -/
theorem forwardUnitAdvancesH : Obligations.ForwardUnitAdvancesH := by
  intro s order live event atH below
  have move : moveOf (afterForward s) .fwd = .advance := moveOf_advance atH below
  have moved : applyMove .advance (afterForward s) =
      { afterForward s with p := s.motion.p + 1, h := s.motion.h + 1 } := by
    rw [← atH]; rfl
  obtain ⟨t, ht, follows⟩ := forward_follows live event order move moved
  have calm : Calm s.blk (handMove ⟨s.cfg, { afterForward s with p := s.motion.p + 1, h := s.motion.h + 1 }⟩
      (decide (s.motion.state ≠ .advancing)) order .advance (markMoved s.blk)) :=
    handMove_calm (markMoved_calm (.refl _)) _
  refine ⟨t, ht, follows, ?_⟩
  obtain ⟨⟨cfg, motion, mem, pending, _, _, _, _, _, _, field, _, _, restart, _⟩, freeze, dropped, _⟩ := follows
  exact ⟨motion, cfg, mem, pending, field.trans calm.field, freeze.trans calm.freeze, dropped.trans calm.dropped,
    by rw [restart]; exact calm.part, by rw [restart]; exact calm.generation⟩

end Sys2Proof.Machine
end

section
/-! Return events, backward and discarded unit events, the motion timers, and the latched cause set. -/

namespace Sys2Proof.Machine

/-! ### Repeat boundaries (R110, R111, R114) -/

/-- The station after the judgement of the repeat that ends. -/
def judgedStation (st : Station) : Station := { st with outOfReg := registerCount st, worst := 0, seen := false }

/-- The track after the judgement of a repeat: the REGISTER flag of the mark, where the count comes to K or above. -/
def judgedTrack (k : Fin 16) (st : Station) (t : Track) : Track :=
  match st.holding with
  | .segment q => if st.mount.persistence ≤ registerCount st then modSeg q (flagRegister k) t else t
  | .gap | .before => t

/-- The blocks after the judgement of a repeat, the raise of REGISTER apart. -/
def judged (k : Fin 16) (b : Blocks) : Blocks :=
  (modStation k (fun _ => judgedStation (b.stationOf k)) b).setTrack (judgedTrack k (b.stationOf k) b.track)

/-- The judgement of a repeat raises REGISTER where the count comes to K or above. -/
theorem judgeRepeat_eq (k : Fin 16) (b : Blocks) : judgeRepeat k b =
    if (b.stationOf k).mount.persistence ≤ registerCount (b.stationOf k) then raise .register (screenSource k) (judged k b)
    else judged k b := by
  unfold judgeRepeat judged judgedTrack
  dsimp only
  by_cases high : (b.stationOf k).mount.persistence ≤ registerCount (b.stationOf k)
  · simp only [if_pos high]
    cases (b.stationOf k).holding <;> rfl
  · simp only [if_neg high]
    cases (b.stationOf k).holding <;> rfl

theorem activateTrim_eq (st : Station) :
    activateTrim st = { st with trim := st.pendingTrim.getD st.trim, pendingTrim := none } := by
  unfold activateTrim
  cases h : st.pendingTrim with
  | some t => rfl
  | none => rcases st; cases h; rfl

theorem repeatBoundary_quiet {x : Ctx} {b : Blocks} {k : Fin 16}
    (h : (b.stationOf k).mount.mounted = false ∨ phaseUnits x k (b.stationOf k).mount ≠ 0) : repeatBoundary x b k = b := by
  have : ¬ ((b.stationOf k).mount.mounted = true ∧ phaseUnits x k (b.stationOf k).mount = 0) := by
    rintro ⟨mounted, zero⟩
    rcases h with h | h
    · rw [mounted] at h; cases h
    · exact h zero
  rw [repeatBoundary]
  exact if_neg this

theorem repeatBoundary_at {x : Ctx} {b : Blocks} {k : Fin 16} (mounted : (b.stationOf k).mount.mounted = true)
    (zero : phaseUnits x k (b.stationOf k).mount = 0) :
    repeatBoundary x b k = modStation k activateTrim (judgeRepeat k b) := by
  rw [repeatBoundary]
  exact if_pos ⟨mounted, zero⟩

theorem phaseUnits_eq (x : Ctx) (k : Fin 16) {m : MountRecord} (h : 0 < m.repeatLen) :
    (phaseUnits x k m : Int) = ((x.motion.p : Int) - x.cfg.screenOffset[k] + m.origin) % m.repeatLen :=
  Int.toNat_of_nonneg (Int.emod_nonneg _ (by omega))

/-- The judgement of a repeat changes no other station. -/
theorem judged_stations (k : Fin 16) (b : Blocks) :
    (judgeRepeat k b).stations = (modStation k (fun _ => judgedStation (b.stationOf k)) b).stations := by
  rw [judgeRepeat_eq]
  split
  · exact raiseAt_stations ..
  · rfl

theorem judged_track (k : Fin 16) (b : Blocks) :
    (judgeRepeat k b).track = judgedTrack k (b.stationOf k) b.track := by
  rw [judgeRepeat_eq]
  split
  · exact raiseAt_track_other _ _ _ _ (by decide)
  · rfl

/-! ### A return event -/

/-- A segment without its screen marks. -/
def unmarked (g : Segment) : Segment := { g with marks := .replicate 16 ⟨.notReached, false⟩ }

/-- What a return event leaves: of the track all but screen marks; the setting cache, the cue queue, the plan reader and
the restart unit's work. -/
structure ReturnKeeps (a b : Blocks) : Prop where
  track : b.track = { a.track with segs := b.track.segs }
  segs : b.track.segs.map unmarked = a.track.segs.map unmarked
  cache : b.cache = a.cache
  cues : b.cues = a.cues
  plan : b.plan = a.plan
  work : b.restart.work = a.restart.work

theorem ReturnKeeps.refl (b : Blocks) : ReturnKeeps b b := ⟨rfl, rfl, rfl, rfl, rfl, rfl⟩

theorem ReturnKeeps.trans {a b c : Blocks} (h : ReturnKeeps a b) (k : ReturnKeeps b c) : ReturnKeeps a c where
  track := by rw [k.track, h.track]
  segs := k.segs.trans h.segs
  cache := k.cache.trans h.cache
  cues := k.cues.trans h.cues
  plan := k.plan.trans h.plan
  work := k.work.trans h.work

theorem judgedTrack_keeps (k : Fin 16) (st : Station) (t : Track) :
    judgedTrack k st t = { t with segs := (judgedTrack k st t).segs } ∧
      (judgedTrack k st t).segs.map unmarked = t.segs.map unmarked := by
  unfold judgedTrack
  split
  · split
    · refine ⟨rfl, ?_⟩
      simp only [modSeg, List.map_map]
      refine List.map_congr_left fun g _ => ?_
      dsimp only [Function.comp_apply]
      split <;> rfl
    · exact ⟨rfl, rfl⟩
  all_goals exact ⟨rfl, rfl⟩

theorem repeatBoundary_returnKeeps (x : Ctx) (b : Blocks) (k : Fin 16) : ReturnKeeps b (repeatBoundary x b k) := by
  by_cases h : (b.stationOf k).mount.mounted = true ∧ phaseUnits x k (b.stationOf k).mount = 0
  · rw [repeatBoundary_at h.1 h.2]
    obtain ⟨track, segs⟩ := judgedTrack_keeps k (b.stationOf k) b.track
    have judged : (modStation k activateTrim (judgeRepeat k b)).track = judgedTrack k (b.stationOf k) b.track :=
      judged_track k b
    have others : (judgeRepeat k b).cache = b.cache ∧ (judgeRepeat k b).cues = b.cues ∧ (judgeRepeat k b).plan = b.plan ∧
        (judgeRepeat k b).restart.work = b.restart.work := by
      rw [judgeRepeat_eq]
      split
      · exact ⟨raiseAt_cache .., raiseAt_cues .., raiseAt_plan .., congrArg Restart.work (raiseAt_restart ..)⟩
      · exact ⟨rfl, rfl, rfl, rfl⟩
    obtain ⟨cache, cues, plan, work⟩ := others
    exact ⟨by rw [judged]; exact track, by rw [judged]; exact segs, cache, cues, plan, work⟩
  · rw [repeatBoundary_quiet (by
      rw [← Bool.not_eq_true]
      exact not_and_or.mp h)]
    exact .refl b

theorem takeReturn_returnKeeps (x : Ctx) (entering : Bool) (b : Blocks) (t : Taker) :
    ReturnKeeps b (takeReturn x entering b t) := by
  cases t with
  | motion =>
    simp only [takeReturn]
    split
    · exact ⟨rfl, rfl, rfl, rfl, rfl, rfl⟩
    · exact .refl b
  | station k => exact repeatBoundary_returnKeeps x b k
  | track | cues | oven | restart => exact .refl b

theorem takeReturns_returnKeeps (x : Ctx) (entering : Bool) (l : List Taker) :
    ∀ b, ReturnKeeps b (l.foldl (takeReturn x entering) b) := by
  induction l with
  | nil => exact .refl
  | cons t l ih => exact fun b => (takeReturn_returnKeeps x entering b t).trans (ih _)

theorem markMoved_returnKeeps (b : Blocks) : ReturnKeeps b (markMoved b) := by
  rw [markMoved_eq]
  exact ⟨rfl, rfl, rfl, rfl, rfl, rfl⟩

/-- A station at a repeat boundary of a return event. -/
theorem takeReturn_station (x : Ctx) (b : Blocks) (k : Fin 16) (live : b.live = true)
    (mounted : (b.stationOf k).mount.mounted = true) (zero : phaseUnits x k (b.stationOf k).mount = 0) :
    let st := b.stationOf k
    let b' := takeReturn x false b (.station k)
    b'.stations.station[k] = activateTrim (judgedStation st) ∧
      (∀ j : Fin 16, j ≠ k → b'.stations.station[j] = b.stations.station[j]) ∧
      (registerCount st < st.mount.persistence → b'.causes = b.causes) ∧
      (st.mount.persistence ≤ registerCount st → Raised .register (k.val + 1) .hold b.causes b'.causes) ∧
      b'.track = judgedTrack k st b.track := by
  intro st b'
  have hb : b' = modStation k activateTrim (judgeRepeat k b) := repeatBoundary_at mounted zero
  have stations := judged_stations k b
  refine ⟨?_, fun j hj => ?_, fun low => ?_, fun high => ?_, ?_⟩
  · rw [hb, modStation_same, stations, modStation_same]
  · rw [hb, modStation_other _ hj, stations, modStation_other _ hj]
  · have judged := judgeRepeat_eq k b
    rw [if_neg (Nat.not_le.mpr low)] at judged
    rw [hb, judged]
    rfl
  · have judged := judgeRepeat_eq k b
    rw [if_pos high] at judged
    rw [hb, judged]
    exact raiseAt_raised .register (screenSource k) .hold _ live
  · rw [hb]
    exact judged_track k b

/-- Settles O19: the takers of a return event leave all of the track but screen marks, and a station changes at a repeat
boundary alone. -/
theorem returnEventKeepsTheTrack : Obligations.ReturnEventKeepsTheTrack := by
  refine ⟨fun s order live event below limit => ?_, fun x b k live => ⟨phaseUnits_eq x k, repeatBoundary_quiet, ?_⟩⟩
  · have move : moveOf (afterForward s) .fwd = .ret := moveOf_return below limit
    obtain ⟨t, ht, follows⟩ := forward_follows live event order move rfl
    refine ⟨t, ht, follows, ?_⟩
    obtain ⟨⟨cfg, motion, mem, pending, _, track, cache, cues, _, _, field, plan, _, restart, _⟩, _⟩ := follows
    have calm := handMove_calm (entering := decide (s.motion.state ≠ .advancing)) (order := order) (v := .ret)
      (markMoved_calm (.refl s.blk)) ⟨s.cfg, applyMove .ret (afterForward s)⟩
    have kept := (markMoved_returnKeeps s.blk).trans
      (takeReturns_returnKeeps ⟨s.cfg, applyMove .ret (afterForward s)⟩ (decide (s.motion.state ≠ .advancing))
        (fullOrder order) _)
    refine ⟨motion, cfg, mem, pending, ?_, ?_, cache.trans kept.cache, cues.trans kept.cues, field.trans calm.field, ?_, ?_⟩
    · rw [track]; exact kept.track
    · rw [track]; exact kept.segs
    · rw [← kept.plan]; exact plan
    · rw [restart]; exact kept.work
  · intro mounted zero count
    obtain ⟨station, others, low, high, track⟩ := takeReturn_station x b k live mounted zero
    refine ⟨?_, others, fun h => ⟨low h, ?_⟩, fun h => ⟨high h, fun q hq => ?_⟩⟩
    · exact station.trans (activateTrim_eq _)
    · rw [track]
      unfold judgedTrack
      split
      · exact if_neg (Nat.not_le.mpr h)
      · rfl
      · rfl
    · have hq : (b.stationOf k).holding = .segment q := hq
      rw [track, judgedTrack, hq]
      exact if_pos h


/-! ### Backward and discarded unit events -/

/-- A raise of TRACK_UNCERTAIN leaves the shape of every segment. -/
theorem raise_shapes (k : CauseKind) (source : Nat) (b : Blocks) :
    (raise k source b).track.segs.map segmentShape = b.track.segs.map segmentShape := by
  rcases raiseAt_track_eq k source k.level b with h | h <;> rw [raise, h]
  simp only [flagUncertain, List.map_map]
  rfl

/-- A unit event's marking leaves the cause set, the track, the cues and the stations. -/
theorem markMoved_others (b : Blocks) : (markMoved b).causes = b.causes ∧ (markMoved b).track = b.track ∧
    (markMoved b).cues = b.cues ∧ (markMoved b).stations = b.stations := by
  rw [markMoved_eq]
  exact ⟨rfl, rfl, rfl, rfl⟩

/-- The oven unit's taking of an entry to ADVANCING changes the oven alone. -/
theorem takeAdvance_motion (x : Ctx) (entering : Bool) (b : Blocks) :
    takeAdvance x entering b .motion = b.setOven (takeAdvance x entering b .motion).oven := by
  simp only [takeAdvance]
  split <;> rfl

/-- Settles O20: what a backward unit event and a discarded one raise, and what they leave. -/
theorem backwardAndDiscardedUnitEvents : Obligations.BackwardAndDiscardedUnitEvents := by
  refine ⟨fun s order live event above => ?_, fun s order live => ⟨fun event limit => ?_, fun event zero => ?_⟩⟩
  · exact backward_follows live event order (v := .back) (moveOf_back above) rfl
  · have move : moveOf (afterForward s) .fwd = .lostForward := moveOf_lostForward limit
    obtain ⟨t, ht, ⟨cfg, motion, mem, pending, causes, track, cache, cues, stations, _⟩, _⟩ :=
      forward_follows live event order move rfl
    obtain ⟨mcauses, mtrack, mcues, mstations⟩ := markMoved_others s.blk
    simp only [State.setBlk_blk, handMove] at causes track cues stations
    rw [takeAdvance_motion] at causes track cues stations
    refine ⟨t, ht, motion, ?_, ?_, ?_, ?_, mem, cfg⟩
    · rw [causes, ← mcauses]
      exact raiseAt_raised .positionLimit 0 .trip
        ((markMoved s.blk).setOven _) (by simpa using live)
    · rw [track, raise, raiseAt_track_other _ _ _ _ (by decide)]
      exact mtrack
    · rw [cues, raise, raiseAt_cues]
      exact mcues
    · rw [stations, raise, raiseAt_stations]
      exact mstations
  · have move : moveOf (afterBackward s) .back = .lostBackward := moveOf_lostBackward zero
    obtain ⟨t, ht, ⟨cfg, motion, mem, pending, causes, track, cache, cues, stations, _⟩, _⟩ :=
      backward_follows live event order move rfl
    obtain ⟨mcauses, mtrack, mcues, mstations⟩ := markMoved_others s.blk
    simp only [State.setBlk_blk, handMove] at causes track cues stations
    refine ⟨t, ht, motion, ?_, ?_, ?_, ?_, mem, cfg⟩
    · rw [causes, ← mcauses]
      exact raiseAt_raised .trackUncertain 0 .trip (markMoved s.blk) (by simpa using live)
    · rw [track, raise_shapes, mtrack]
    · rw [cues, raise, raiseAt_cues, mcues]
    · rw [stations, raise, raiseAt_stations, mstations]

/-! ### Motion timers and snapshot triggers -/

/-- A distance mark below the limit is the exact sum. -/
theorem position_of_lt {base sum : Nat} (h : sum < Config.positions) : position base sum = sum := if_pos (.inl h)

/-- Settles O21: the timers of the motion unit, and what a snapshot trigger does in each part state. -/
theorem motionTimersAndSnapshotTriggers : Obligations.MotionTimersAndSnapshotTriggers := by
  refine ⟨⟨fun s n running => ?_, fun _ => rfl, fun _ => rfl⟩, fun x b => ⟨fun armed free below => ?_, fun armed busy => ?_,
    fun arming => ?_, fun idle => ?_⟩⟩
  · refine ⟨_, by simp only [exec, execStopDetectExpiry, running]; rfl, ?_⟩
    exact decided_follows s.blk.path.requests .withNew
      ((s.setMotion { s.motion with state := .halted, stopTimer := none }).setBlk (trigger s.ctx s.blk))
  · simp only [trigger, Blocks.modRestart, armed, List.contains_eq_mem, free, decide_false, Bool.false_eq_true, if_false,
      beginSnapshot, position_of_lt below]
  · simp only [trigger, Blocks.modRestart, armed, List.contains_eq_mem, busy, decide_true, if_true]
  · simp only [trigger, Blocks.modRestart, arming]
  · rw [live_eq] at idle
    cases hp : b.restart.part with
    | armed => rw [hp] at idle; cases idle
    | dormant => simp only [trigger, Blocks.modRestart, hp]; rfl
    | arming f =>
      cases f with
      | true => rw [hp] at idle; cases idle
      | false => simp only [trigger, Blocks.modRestart, hp]; rfl

/-! ### Raise claims and the stop lines -/

theorem latch_owes (k : CauseKind) (source : Nat) (level : Level) (b : Blocks) :
    (latch k source level b).report.rewriteOwed = true := by
  unfold latch
  dsimp only
  split <;> rfl

/-- The set holds a cause of a level where a kind is latched at it. -/
theorem holds_iff (c : CauseSet) (l : Level) : c.holds l = true ↔ ∃ k e, c.entry k = some e ∧ e.level = l := by
  unfold CauseSet.holds
  rw [List.any_eq_true]
  constructor
  · rintro ⟨k, _, hk⟩
    cases he : c.entry k with
    | none => rw [he] at hk; cases hk
    | some e => rw [he] at hk; exact ⟨k, e, he, of_decide_eq_true hk⟩
  · rintro ⟨k, e, he, hl⟩
    exact ⟨k, mem_all k, by rw [he]; exact decide_eq_true hl⟩

/-- Settles O22: a raise claim latches or counts, and the lines follow the set. -/
theorem raiseClaimsAndStopLines : Obligations.RaiseClaimsAndStopLines := by
  refine ⟨fun k source level b => ⟨fun live => ⟨raiseAt_raised k source level b live, fun free => ?_⟩,
    raiseAt_idle k source level b⟩, fun b => ⟨holds_iff b.causes .hold, holds_iff b.causes .trip⟩⟩
  rw [raiseAt, if_pos live, free]
  exact latch_owes ..

/-! ### Clear claims -/

/-- A clear claim changes nothing that a standing condition reads. -/
theorem standing_cleared (x : Ctx) (b : Blocks) (cs : CauseSet) (owed : Bool) (o : Oven) (k : CauseKind) :
    standing x (((b.setCauses cs).setReport { b.report with rewriteOwed := owed }).setOven o) k = standing x b k := by
  cases k <;> rfl

theorem clearKind_oven (x : Ctx) (b : Blocks) (k : CauseKind) : (clearKind x b k).oven =
    if k = .ovenVent ∧ (b.causes.entry k).isSome = true then releaseVent b.oven else b.oven := by
  obtain ⟨owed, e⟩ := clearKind_eq x b k
  rw [e]
  rfl

/-- The oven after one named kind and a run of others: released where OVEN_VENT is among them all. -/
theorem oven_clearKinds {x : Ctx} {b : Blocks} {j : CauseKind} {l : List CauseKind} (fresh : j ∉ l) :
    (if .ovenVent ∈ l ∧ ((clearKind x b j).causes.entry .ovenVent).isSome = true then releaseVent (clearKind x b j).oven
      else (clearKind x b j).oven) =
    if .ovenVent ∈ j :: l ∧ (b.causes.entry .ovenVent).isSome = true then releaseVent b.oven else b.oven := by
  by_cases hj : j = .ovenVent
  · subst hj
    rw [if_neg (fun h => fresh h.1), clearKind_oven]
    simp only [List.mem_cons_self, true_and]
  · have other : (clearKind x b j).causes.entry .ovenVent = b.causes.entry .ovenVent := by
      rw [clearKind_causes, entry_set_other _ _ _ _ (Ne.symm hj)]
    rw [other, clearKind_oven, if_neg (c := j = .ovenVent ∧ _) (fun h => hj h.1)]
    simp only [List.mem_cons, Ne.symm hj, false_or]

/-- What a run of named kinds of a clear claim changes: their entries, the owed rewrite, and the oven where OVEN_VENT is
among them and latched. -/
theorem clearKinds_eq (x : Ctx) (l : List CauseKind) : ∀ b : Blocks, l.Nodup → ∃ cs owed,
    l.foldl (clearKind x) b = ((b.setCauses cs).setReport { b.report with rewriteOwed := owed }).setOven
      (if .ovenVent ∈ l ∧ (b.causes.entry .ovenVent).isSome = true then releaseVent b.oven else b.oven) ∧
    ∀ k, cs.entry k = if k ∈ l then clearedEntry k (standing x b k) (b.causes.entry k) else b.causes.entry k := by
  induction l with
  | nil => exact fun b _ => ⟨b.causes, b.report.rewriteOwed, rfl, fun _ => rfl⟩
  | cons j l ih =>
    intro b nodup
    obtain ⟨fresh, nodup⟩ := List.nodup_cons.mp nodup
    obtain ⟨owed₁, h₁⟩ := clearKind_eq x b j
    obtain ⟨cs, owed, h, entries⟩ := ih (clearKind x b j) nodup
    refine ⟨cs, owed, ?_, fun k => ?_⟩
    · rw [List.foldl_cons, h, oven_clearKinds fresh, h₁]
      rfl
    · rw [entries k, clearKind_causes]
      have stands : standing x (clearKind x b j) k = standing x b k := by rw [h₁]; exact standing_cleared ..
      rw [stands]
      by_cases hk : k = j
      · subst hk
        rw [if_neg fresh, if_pos (List.mem_cons_self ..), entry_set_self]
      · rw [entry_set_other _ _ _ _ hk]
        simp only [List.mem_cons, hk, false_or]

/-- The kinds that a word of a clear claim names. -/
theorem mem_named {mask : Word} {k : CauseKind} :
    k ∈ CauseKind.all.filter (fun k => bit mask k.number) ↔ bit mask k.number = true := by
  simp [mem_all k]

theorem named_nodup (mask : Word) : (CauseKind.all.filter fun k => bit mask k.number).Nodup :=
  List.Nodup.filter _ (by decide)

/-- What a clear claim changes. -/
theorem clearClaim_eq (x : Ctx) (mask : Word) (b : Blocks) : ∃ cs owed,
    clearClaim x mask b = ((b.setCauses cs).setReport { b.report with rewriteOwed := owed }).setOven
      (if bit mask 6 = true ∧ (b.causes.entry .ovenVent).isSome = true then releaseVent b.oven else b.oven) ∧
    ∀ k, cs.entry k = if bit mask k.number = true then clearedEntry k (standing x b k) (b.causes.entry k)
      else b.causes.entry k := by
  obtain ⟨cs, owed, h, entries⟩ := clearKinds_eq x _ b (named_nodup mask)
  simp only [mem_named] at h entries
  exact ⟨cs, owed, h, entries⟩

theorem tabulate_get {α : Type} {n : Nat} (f : Fin n → α) (i : Fin n) : (Bank.tabulate f)[i] = f i := by
  simp [Bank.tabulate]

/-- A zone where a clear claim may have cleared OVEN_VENT: out of VENT where it has (R137). -/
theorem zone_of_cleared {cleared : Prop} [Decidable cleared] (o : Oven) (z : Fin 8) :
    (if cleared then releaseVent o else o).zone[z] =
      if cleared ∧ o.zone[z].mode = .vent then { o.zone[z] with mode := if o.dwellStage = 0 then .run else .standby }
      else o.zone[z] := by
  by_cases h : cleared
  · rw [if_pos h, releaseVent, tabulate_get]
    simp only [h, true_and]
  · rw [if_neg h, if_neg (fun k => h k.1)]

/-- A full-word nonzero write to status word 56 is an acknowledge (R168). -/
theorem wordClass_acknowledge {s : State} {w : CarriedWord} {v : WriteWord} (h : CarriesWrite s w v .status 56)
    (full : v.enables = 0xF#4) (nonzero : v.value ≠ 0) : wordClass s.ctx s.blk w = .acknowledge := by
  obtain ⟨_, pass, word, enabled, place⟩ := h
  rw [wordClass, pass, word]
  dsimp only
  rw [if_neg enabled, place]
  have both : fullNonzero v = true := decide_eq_true ⟨full, nonzero⟩
  simp [classOf, both]

/-- Settles O23: a clear claim changes the entries it names, the oven where it clears OVEN_VENT, and nothing else; and what
stands for each kind. -/
theorem acknowledgeClearsNamedKinds : Obligations.AcknowledgeClearsNamedKinds := by
  refine ⟨fun s w v decision carries full nonzero => ?_, fun x b => ?_⟩
  · obtain ⟨carried, _, word, _⟩ := id carries
    obtain ⟨⟨cfg, motion, _, _, causes, track, cache, cues, stations, oven, field, _, report, _⟩, _⟩ :=
      completeWord_spec (decision := decision) (effect := acknowledgeEffect) carried
        (wordClass_acknowledge carries full nonzero)
    have effect : acknowledgeEffect s.ctx w (wordBlocks s w) = clearClaim s.ctx v.value
        ((wordBlocks s w).modReport fun r => { r with acks := inc16 r.acks }) := by
      simp only [acknowledgeEffect, word]
    obtain ⟨cs, owed, claim, entries⟩ := clearClaim_eq s.ctx v.value
      ((wordBlocks s w).modReport fun r => { r with acks := inc16 r.acks })
    have stands (k : CauseKind) : standing s.ctx ((wordBlocks s w).modReport fun r => { r with acks := inc16 r.acks }) k =
        standing s.ctx s.blk k := by cases k <;> rfl
    simp only [State.setBlk_blk, effect, claim] at causes track cache cues stations oven field report
    refine ⟨_, rfl, ?_, track, cues, stations, cache, field, motion, cfg, fun k => ⟨fun off => ?_, fun on => ?_⟩, ?_,
      fun z => ?_⟩
    · rw [report.1]; rfl
    · rw [causes]
      exact (entries k).trans (if_neg (by simp [off]))
    · rw [causes]
      refine (entries k).trans ((if_pos on).trans ?_)
      rw [stands]
      rfl
    · rw [oven]
      dsimp only [Blocks.setOven_oven]
      split <;> rfl
    · rw [oven]
      exact (zone_of_cleared _ z).trans (by simp only [and_assoc]; rfl)
  · refine ⟨decide_eq_true_iff, ?_, decide_eq_true_iff, .rfl, .rfl, ?_, ?_, decide_eq_true_iff, fun k hk => ?_,
      fun a k hk => ?_, fun a z hz => ?_⟩
    · simp [standing, moduleLostStands, modules]
    · simp [standing, registerStands, screens]
    · simp [standing, moduleFaultStands, modules]
    · cases k <;> first | rfl | exact absurd hk (by decide)
    · unfold moduleScreen at hk
      split at hk
      · rename_i low
        cases hk
        exact dif_pos low
      · cases hk
    · unfold moduleZone at hz
      split at hz
      · rename_i high
        cases hz
        exact dif_neg (Nat.not_lt.mpr high)
      · cases hz

end Sys2Proof.Machine
end

section
/-! What the work of the cue queue, the oven, the stations and the field line leaves of the rest: the track but for what
its segments gather, the plan reader, the setting cache, the report unit but for an owed rewrite, the path unit and the
part state. -/

namespace Sys2Proof.Machine

/-! ### What the web carries on -/

/-- A segment without what it gathers on its way: marks, errors, probes, verdict, and the flags that tell of them. -/
def Segment.core (g : Segment) : Segment :=
  { g with
    flags := { g.flags with
      late := false, seamUnlifted := false, cuesLost := false, positionUncertain := false, coverageShort := false }
    marks := .replicate 16 ⟨.notReached, false⟩
    worst := .replicate 16 0
    probes := []
    markList := []
    furtherMarks := 0
    verdict := .notApplicable
    gainedUnder := false
    gainedOver := false }

/-- A segment further on its way: its core as it was, and still LATE where it was. -/
def Carried (g g' : Segment) : Prop := g'.core = g.core ∧ (g.flags.late = true → g'.flags.late = true)

theorem Carried.refl (g : Segment) : Carried g g := ⟨rfl, id⟩

theorem Carried.trans {g g' g'' : Segment} (h : Carried g g') (k : Carried g' g'') : Carried g g'' :=
  ⟨k.1.trans h.1, k.2 ∘ h.2⟩

/-- What the core of a segment holds, of that which the statements about the track tell. -/
structure SameCore (g g' : Segment) : Prop where
  shape : segmentShape g' = segmentShape g
  seq : g'.seq = g.seq
  kind : g'.kind = g.kind
  head : g'.head = g.head
  length : g'.length = g.length
  plannedEnd : g'.plannedEnd = g.plannedEnd
  contOwed : g'.contOwed = g.contOwed
  setting : g'.setting = g.setting
  orderId : g'.orderId = g.orderId
  tag : g'.tag = g.tag
  split : g'.flags.split = g.flags.split
  holdAtEnd : g'.flags.holdAtEnd = g.flags.holdAtEnd

theorem Carried.fields {g g' : Segment} (h : Carried g g') : SameCore g g' := by
  obtain ⟨h, _⟩ := h
  simp only [Segment.core, Segment.mk.injEq, SegFlags.mk.injEq] at h
  constructor <;> simp only [segmentShape, h]

/-- Each segment of the track further on its way, and the rest of the track as it was. -/
def TrackWork (t t' : Track) : Prop :=
  ∃ m : Segment → Segment, (∀ g, Carried g (m g)) ∧ t' = { t with segs := t.segs.map m }

theorem TrackWork.refl (t : Track) : TrackWork t t := ⟨id, Carried.refl, by simp⟩

theorem TrackWork.trans {t u v : Track} (h : TrackWork t u) (k : TrackWork u v) : TrackWork t v := by
  obtain ⟨m, hm, rfl⟩ := h
  obtain ⟨n, hn, rfl⟩ := k
  exact ⟨n ∘ m, fun g => (hm g).trans (hn (m g)), by simp⟩

theorem mapSegs_trackWork {m : Segment → Segment} (t : Track) (hm : ∀ g, Carried g (m g) := by exact fun _ => ⟨rfl, id⟩) :
    TrackWork t { t with segs := t.segs.map m } := ⟨m, hm, rfl⟩

theorem modSeg_trackWork {q : Nat} {f : Segment → Segment} (hf : ∀ g, Carried g (f g)) (t : Track) :
    TrackWork t (modSeg q f t) := by
  refine ⟨fun g => if g.seq = q then f g else g, fun g => ?_, rfl⟩
  dsimp only
  split
  · exact hf g
  · exact .refl g

theorem raiseAt_trackWork (k : CauseKind) (source : Nat) (level : Level) (b : Blocks) :
    TrackWork b.track (raiseAt k source level b).track := by
  rcases raiseAt_track_eq k source level b with h | h <;> rw [h]
  · exact .refl _
  · exact mapSegs_trackWork b.track

/-- The work of the cue queue, the oven, the stations and the field line. -/
structure WebWork (a b : Blocks) : Prop where
  track : TrackWork a.track b.track
  plan : b.plan = a.plan
  cache : b.cache = a.cache
  path : b.path = a.path
  report : b.report = { a.report with rewriteOwed := b.report.rewriteOwed }
  part : b.restart.part = a.restart.part

theorem WebWork.refl (b : Blocks) : WebWork b b := ⟨.refl _, rfl, rfl, rfl, rfl, rfl⟩

theorem WebWork.trans {a b c : Blocks} (h : WebWork a b) (k : WebWork b c) : WebWork a c where
  track := h.track.trans k.track
  plan := k.plan.trans h.plan
  cache := k.cache.trans h.cache
  path := k.path.trans h.path
  report := by rw [k.report, h.report]
  part := k.part.trans h.part

theorem WebWork.live {a b : Blocks} (h : WebWork a b) : b.live = a.live := live_of_part h.part

section Updates
variable {a b : Blocks} (h : WebWork a b)
include h

theorem modCues_web {f : Cues → Cues} : WebWork a (b.modCues f) := h.trans ⟨.refl _, rfl, rfl, rfl, rfl, rfl⟩
theorem modStations_web {f : Stations → Stations} : WebWork a (b.modStations f) := h.trans ⟨.refl _, rfl, rfl, rfl, rfl, rfl⟩
theorem modOven_web {f : Oven → Oven} : WebWork a (b.modOven f) := h.trans ⟨.refl _, rfl, rfl, rfl, rfl, rfl⟩
theorem modField_web {f : FieldLine → FieldLine} : WebWork a (b.modField f) := h.trans ⟨.refl _, rfl, rfl, rfl, rfl, rfl⟩
theorem setField_web {v : FieldLine} : WebWork a (b.setField v) := h.trans ⟨.refl _, rfl, rfl, rfl, rfl, rfl⟩

theorem modTrack_web {f : Track → Track} (hf : ∀ t, TrackWork t (f t)) : WebWork a (b.modTrack f) :=
  h.trans ⟨hf b.track, rfl, rfl, rfl, rfl, rfl⟩

theorem modSeg_web {q : Nat} {f : Segment → Segment} (hf : ∀ g, Carried g (f g) := by exact fun _ => ⟨rfl, id⟩) :
    WebWork a (b.modTrack (modSeg q f)) := modTrack_web h (modSeg_trackWork hf)

theorem raiseAt_web {k : CauseKind} {source : Nat} {level : Level} : WebWork a (raiseAt k source level b) :=
  h.trans {
    track := raiseAt_trackWork ..
    plan := by simp
    cache := by simp
    path := by simp
    report := raiseAt_report ..
    part := by simp }

theorem raise_web {k : CauseKind} {source : Nat} : WebWork a (raise k source b) := raiseAt_web h

/-- A change of the restart unit that leaves the part state. -/
theorem modRestart_web {f : Restart → Restart} (part : ∀ r, (f r).part = r.part := by exact fun _ => rfl) :
    WebWork a (b.modRestart f) := h.trans ⟨.refl _, rfl, rfl, rfl, rfl, part b.restart⟩

theorem trigger_web (x : Ctx) : WebWork a (trigger x b) := by
  obtain ⟨work, mark, pending, e⟩ := trigger_restart x b
  rw [e]
  exact h.trans ⟨.refl _, rfl, rfl, rfl, rfl, rfl⟩

end Updates

theorem foldl_web {ι : Type} {a : Blocks} {f : Blocks → ι → Blocks} (hf : ∀ b i, WebWork a b → WebWork a (f b i))
    (l : List ι) : ∀ {b : Blocks}, WebWork a b → WebWork a (l.foldl f b) := by
  induction l with
  | nil => exact id
  | cons i l ih => exact fun h => ih (hf _ i h)

theorem ite_web {a b c : Blocks} {p : Prop} [Decidable p] (hb : WebWork a b) (hc : WebWork a c) :
    WebWork a (if p then b else c) := by
  split
  · exact hb
  · exact hc

section Work
variable {a b : Blocks} (h : WebWork a b) (x : Ctx)
include h

/-! ### The oven unit -/

theorem modZone_web {z : Fin 8} {f : Zone → Zone} : WebWork a (modZone z f b) := modOven_web h

theorem refreshZone_web {z : Fin 8} : WebWork a (refreshZone x b z) := by
  unfold refreshZone
  dsimp only
  split
  · split <;> exact modZone_web h
  · exact modZone_web h
  · exact modZone_web h

theorem giveVerdict_web {source q rel : Nat} {v : Verdict} : WebWork a (giveVerdict source q rel v b) := by
  have counted := modOven_web (f := countVerdict v) (modSeg_web (q := q)
    (f := fun g => (modProbe rel (fun p => { p with verdict := v }) g).gain v) h)
  cases v
  case undercured | overcured => exact ite_web counted (raise_web counted)
  all_goals exact counted

theorem placeProbe_web {q rel : Nat} : WebWork a (placeProbe x b q rel) := by
  unfold placeProbe
  split
  · exact h
  · split
    · exact h
    · have placed (pl : Place) := modSeg_web (q := q) (f := modProbe rel fun p => { p with place := pl }) h
      exact ite_web (giveVerdict_web (placed _)) (placed _)

theorem createProbe_web {q rel : Nat} : WebWork a (createProbe x q rel b) :=
  placeProbe_web (modSeg_web h) x

theorem growProbe_web {k : Nat} : WebWork a (growProbe x b k) := by
  unfold growProbe
  split
  · exact h
  · exact ite_web (createProbe_web h x) h

theorem ovenAdmitted_web {g : Segment} : WebWork a (ovenAdmitted x g b) := ite_web (createProbe_web h x) h

theorem ovenClosed_web {q n : Nat} : WebWork a (ovenClosed x q n b) := by
  have cut := modSeg_web (q := q) (f := fun g => { g with probes := g.probes.filter fun p => decide (p.rel < n) }) h
  unfold ovenClosed
  revert cut
  generalize b.modTrack _ = c
  intro cut
  have tail : WebWork a (match c.track.find q with
      | some g =>
        (match g.probes.getLast? with
         | some p => if p.rel + 1 < n then createProbe x q (n - 1) c else c
         | none => createProbe x q (n - 1) c)
      | none => c) := by
    split
    · split
      · exact ite_web (createProbe_web cut x) cut
      · exact createProbe_web cut x
    · exact cut
  exact ite_web (modOven_web (modSeg_web tail)) tail

theorem ovenAdvance_web : WebWork a (ovenAdvance x b) :=
  foldl_web (fun _ _ h => growProbe_web h x) _
    (foldl_web (fun _ _ h => placeProbe_web h x) _ (foldl_web (fun _ _ h => refreshZone_web h x) _ h))

theorem enterVent_web {c : Anchor} : WebWork a (enterVent c b) := by
  unfold enterVent
  exact modOven_web (raise_web (foldl_web (fun _ _ h => giveVerdict_web h) _ (modOven_web h)))

theorem dwellTick_web : WebWork a (dwellTick x b) :=
  ite_web (ite_web (raise_web (modOven_web (modOven_web h))) (ite_web (enterVent_web (modOven_web h)) (modOven_web h))) h

theorem accountingTick_web : WebWork a (accountingTick x b) :=
  dwellTick_web (modTrack_web h (by exact fun t => mapSegs_trackWork t)) x

theorem restoreProbes_web : WebWork a (restoreProbes x b) :=
  foldl_web (fun _ _ h => modSeg_web (placeProbe_web h x)) _ h

/-! ### The screen stations -/

theorem modStation_web {k : Fin 16} {f : Station → Station} : WebWork a (modStation k f b) := modStations_web h

theorem evaluateWant_web {k : Fin 16} : WebWork a (evaluateWant x b k) := ite_web h (modStation_web h)

theorem evaluateWants_web : WebWork a (evaluateWants x b) := foldl_web (fun _ _ h => evaluateWant_web h x) _ h

theorem evaluateMoved_web {old : Track} : WebWork a (evaluateMoved x old b) :=
  foldl_web (fun _ _ h => evaluateWant_web h x) _ h

theorem liftUnexpected_web {k : Fin 16} : WebWork a (liftUnexpected x k b) :=
  evaluateWant_web (raise_web (modStations_web (modStation_web h))) x

theorem liftReport_web {k : Fin 16} {r : LiftPosition} : WebWork a (liftReport x k r b) := by
  unfold liftReport
  dsimp only
  split
  · exact liftUnexpected_web h x
  · exact liftUnexpected_web h x
  · exact liftUnexpected_web h x
  · exact liftUnexpected_web h x
  · exact modStation_web h
  · exact modStation_web h
  · exact ite_web (evaluateWant_web (modStation_web h) x) h
  · exact h

theorem liftExpiry_web {k : Fin 16} : WebWork a (liftExpiry x k b) := by
  have expired := evaluateWant_web (k := k) (raise_web (k := .liftTimeout) (source := screenSource k) (modStations_web
    (f := fun s => { s with liftTimeouts := inc16 s.liftTimeouts }) (modStation_web (k := k) (f := enterFault .timeout) h))) x
  unfold liftExpiry
  split
  · exact expired
  · exact expired
  all_goals exact modStation_web h

theorem stationLost_web {k : Fin 16} : WebWork a (stationLost x k b) :=
  evaluateWant_web (raiseAt_web (modStation_web h)) x

theorem refreshStation_web {k : Fin 16} : WebWork a (refreshStation x b k) := by
  unfold refreshStation
  refine ite_web h ?_
  dsimp only
  split
  · exact modStation_web (modSeg_web h)
  · exact modStation_web h
  · exact modStation_web h

theorem placeStations_web : WebWork a (placeStations x b) := foldl_web (fun _ _ h => modStation_web h) _ h

theorem stationBoundary_web {k : Fin 16} : WebWork a (stationBoundary x b k) :=
  ite_web h (evaluateWant_web (refreshStation_web h x) x)

theorem refreshBehind_web {p : Nat} : WebWork a (refreshBehind x p b) :=
  foldl_web (fun _ _ h => refreshZone_web h x) _ (foldl_web (fun _ _ h => stationBoundary_web h x) _ h)

omit h in
theorem foldl_modSeg_trackWork {f : Segment → Segment} (l : List Nat) (t : Track)
    (hf : ∀ g, Carried g (f g) := by exact fun _ => ⟨rfl, id⟩) : TrackWork t (l.foldl (fun t q => modSeg q f t) t) := by
  induction l generalizing t with
  | nil => exact .refl t
  | cons q l ih => exact (modSeg_trackWork hf t).trans (ih _)

theorem seamHeadTest_web {k : Fin 16} : WebWork a (seamHeadTest x b k) := by
  unfold seamHeadTest
  split
  · exact h
  · exact ite_web h (raise_web (modStations_web (modTrack_web h (by exact fun t => foldl_modSeg_trackWork _ t))))

theorem judgeRepeat_web {k : Fin 16} : WebWork a (judgeRepeat k b) := by
  have judged := modStation_web (k := k) (f := fun s => { s with outOfReg := registerCount (b.stationOf k), worst := 0, seen := false }) h
  refine ite_web (raise_web ?_) judged
  split
  · exact modSeg_web judged
  · exact judged
  · exact judged

theorem repeatBoundary_web {k : Fin 16} : WebWork a (repeatBoundary x b k) :=
  ite_web (modStation_web (judgeRepeat_web h)) h

theorem stationAdvance_web {k : Fin 16} : WebWork a (stationAdvance x b k) :=
  repeatBoundary_web (evaluateWant_web (ite_web (modStation_web (seamHeadTest_web (refreshStation_web h x) x))
    (seamHeadTest_web (refreshStation_web h x) x)) x) x

theorem registration_web {k : Fin 16} {error : Int} : WebWork a (registration k error b) := by
  refine ite_web ?_ h
  split
  · exact modSeg_web (modStation_web h)
  · exact modStation_web h
  · exact modStation_web h

theorem stationReply_web {k : Fin 16} {r : LiftPosition} {error : Int} : WebWork a (stationReply x k r error b) :=
  liftReport_web (registration_web h) x

theorem applyImage_web {off : Nat} {w : WriteWord} : WebWork a (applyImage off w b) := by
  unfold applyImage
  split
  · exact modStations_web h
  · exact h

theorem refuseMount_web {detail : MountDetail} {source : Nat} : WebWork a (refuseMount detail source b) :=
  raise_web (modStations_web h)

theorem takeTrim_web {k : Fin 16} {w : Word} : WebWork a (takeTrim k w b) :=
  ite_web (refuseMount_web (modStations_web h))
    (ite_web (refuseMount_web (modStations_web h)) (modStations_web (modStation_web h)))

/-! ### The cue queue -/

theorem fireScreenCue_web {k : Fin 16} {action : CueAction} {q : Nat} : WebWork a (fireScreenCue x b k action q) :=
  ite_web (ite_web (modStation_web h) (evaluateWant_web (modStation_web h) x)) (modCues_web h)

omit h in
/-- The record of a MARK cue is no part of a segment's core. -/
theorem recordMark_carried (rel : Int) (code : Nat) (g : Segment) : Carried g (recordMark rel code g) := by
  unfold recordMark
  split <;> exact ⟨rfl, id⟩

theorem actCue_web {p : PendingCue} : WebWork a (actCue x b p) := by
  unfold actCue
  cases p.cue.action
  case zoneSet =>
    dsimp only
    split
    · exact modZone_web h
    · exact h
  case mark => exact modSeg_web (modCues_web h) (by exact fun g => recordMark_carried _ _ g)
  case lift | lower | pasteHold | pasteResume =>
    dsimp only
    split
    · exact fireScreenCue_web h x
    · exact modCues_web h

theorem fireCue_web {p : PendingCue} : WebWork a (fireCue x b p) :=
  ite_web (modCues_web h)
    (actCue_web (ite_web (modCues_web (modSeg_web (modCues_web h) (by exact fun _ => ⟨rfl, fun _ => rfl⟩))) (modCues_web h)) x)

theorem fireDue_web : WebWork a (fireDue x b) := foldl_web (fun _ _ h => fireCue_web h x) _ (modCues_web h)

theorem insertCue_web {lateBelow edge q : Nat} {c : Cue} : WebWork a (insertCue x lateBelow edge q b c) :=
  ite_web (fireDue_web (modCues_web (modCues_web h)) x)
    (modCues_web (modSeg_web (raise_web (modCues_web h))))

theorem insertBatch_web {advance : Bool} {edge q : Nat} {cs : List Cue} : WebWork a (insertBatch x advance edge q cs b) :=
  foldl_web (fun _ _ h => insertCue_web h x) _ h

theorem rebuildBatch_web {g : Segment} : WebWork a (rebuildBatch x b g) := by
  refine foldl_web (fun c i h => ?_) _ h
  unfold rebuildListed
  split
  · exact ite_web (modCues_web h) (insertCue_web h x)
  · exact h

theorem cancelCues_web {test : PendingCue → Bool} : WebWork a (cancelCues test b) := modCues_web h

theorem cancelTruncated_web {q n : Nat} : WebWork a (cancelTruncated q n b) := cancelCues_web h

theorem cancelRetired_web {q : Nat} : WebWork a (cancelRetired q b) := cancelCues_web h

/-! ### The hand-over of a closure and of an admission -/

theorem handClosure_web {advance : Bool} {q : Nat} : WebWork a (handClosure x advance q b) := by
  unfold handClosure
  split
  · exact h
  · split
    · exact h
    · exact ite_web (ovenClosed_web (insertBatch_web h x) x) h

theorem handAdmission_web {advance : Bool} : WebWork a (handAdmission x advance b) := by
  unfold handAdmission
  split
  · exact h
  · exact ite_web (ovenAdmitted_web (ite_web (insertBatch_web h x) h) x) h

/-! ### Unit events -/

theorem restartAdvance_web : WebWork a (restartAdvance x b) :=
  ite_web (trigger_web (modRestart_web h) x) h

theorem markMoved_web : WebWork a (markMoved b) := by
  rw [markMoved_eq]
  exact h.trans ⟨.refl _, rfl, rfl, rfl, rfl, rfl⟩

/-! ### The field line -/

theorem modModule_web {m : Fin 24} {f : Module → Module} : WebWork a (modModule m f b) := modField_web h

theorem startCycle_web : WebWork a (startCycle x b) := by
  unfold startCycle
  dsimp only
  split <;> exact setField_web h

theorem endExchange_web {m : Fin 24} {elapsed : Nat} : WebWork a (endExchange x m elapsed b) := by
  have toggled : WebWork a (toggleSelector m b) := modModule_web h
  unfold endExchange
  dsimp only
  split
  · exact modField_web toggled
  · exact ite_web (startCycle_web (modField_web (modField_web toggled)) x) (modField_web toggled)

theorem cycleExpiry_web : WebWork a (cycleExpiry x b) := by
  unfold cycleExpiry
  dsimp only
  split
  · exact startCycle_web (modField_web h) x
  · exact modField_web (modField_web h)

theorem handLoss_web {m : Fin 24} : WebWork a (handLoss x m b) := by
  unfold handLoss
  split
  · exact stationLost_web h x
  · exact raiseAt_web h

theorem countMiss_web {m : Fin 24} {r : MissReason} : WebWork a (countMiss x m r b) :=
  ite_web (ite_web (handLoss_web (modField_web (modField_web (modField_web h))) x)
    (modField_web (modField_web (modField_web h)))) (modField_web (modField_web h))

theorem takeFault_web {m : Fin 24} {fault : Bool} : WebWork a (takeFault m fault b) :=
  ite_web (raise_web (modField_web h)) (modField_web h)

theorem takeItem_web {m : Fin 24} {selector : Bool} {value : Nat} : WebWork a (takeItem m selector value b) :=
  ite_web (modField_web h) (ite_web (raise_web (modField_web h)) (modField_web h))

theorem handReply_web {m : Fin 24} {r : GoodReply} : WebWork a (handReply x m r b) := by
  unfold handReply
  split
  · split
    · exact ite_web (stationReply_web h x) h
    · exact h
  · split
    · exact ite_web (modZone_web h) h
    · exact h

theorem goodReply_web {m : Fin 24} {selector : Bool} {r : GoodReply} {item : Nat} :
    WebWork a (goodReply x m selector r item b) :=
  ite_web (handReply_web (takeItem_web (takeFault_web (modField_web (modField_web h)))) x)
    (takeItem_web (takeFault_web (modField_web h)))

theorem judgeFrame_web {e : Exchange} {bytes : List Byte} {framing : Bool} {elapsed : Nat} :
    WebWork a (judgeFrame x e bytes framing elapsed b) := by
  unfold judgeFrame
  dsimp only
  split
  · exact endExchange_web (goodReply_web h x) x
  · exact endExchange_web (countMiss_web h x) x

theorem sendCommand_web {e : Exchange} : WebWork a (sendCommand x e b) := by
  unfold sendCommand
  exact modField_web h

theorem missExchange_web {e : Exchange} {r : MissReason} {elapsed : Nat} : WebWork a (missExchange x e r elapsed b) :=
  endExchange_web (countMiss_web h x) x

end Work

end Sys2Proof.Machine
end

section
/-! Every step keeps the bounds of the pending seam list, of the retirement queue and of the host run count. -/

namespace Sys2Proof.Machine

/-! ### Work within the bounds -/

/-- From `a` to `b` the pending seam list stays within 4 entries (R33), the retirement queue within 8 records (R159), and
the host run count within 4 (R182). -/
structure Bounds (a b : Blocks) : Prop where
  seams : a.track.seams.length ≤ 4 → b.track.seams.length ≤ 4
  queue : a.report.queue.length ≤ 8 → b.report.queue.length ≤ 8
  run : a.path.hostRun ≤ 4 → b.path.hostRun ≤ 4

theorem Bounds.refl (b : Blocks) : Bounds b b := ⟨id, id, id⟩

theorem Bounds.trans {a b c : Blocks} (h : Bounds a b) (k : Bounds b c) : Bounds a c :=
  ⟨k.seams ∘ h.seams, k.queue ∘ h.queue, k.run ∘ h.run⟩

theorem TrackWork.seams {t t' : Track} (h : TrackWork t t') : t'.seams = t.seams := by
  obtain ⟨m, _, rfl⟩ := h
  rfl

theorem WebWork.bounds {a b : Blocks} (h : WebWork a b) : Bounds a b where
  seams := by rw [h.track.seams]; exact id
  queue := by rw [h.report]; exact id
  run := by rw [h.path]; exact id

section Updates
variable {a b : Blocks} (h : Bounds a b)
include h

/-- Work of the cue queue, the oven, the stations and the field line. -/
theorem Bounds.web {c : Blocks} (k : WebWork b c) : Bounds a c := h.trans k.bounds

/-- A change of the track that leaves its seams, or has fewer. -/
theorem modTrack_bounds {f : Track → Track} (hf : ∀ t, (f t).seams.length ≤ t.seams.length := by exact fun _ => le_rfl) :
    Bounds a (b.modTrack f) := h.trans ⟨(hf _).trans, id, id⟩

theorem modPlan_bounds {f : Plan → Plan} : Bounds a (b.modPlan f) := h.trans ⟨id, id, id⟩
theorem modCache_bounds {f : Cache → Cache} : Bounds a (b.modCache f) := h.trans ⟨id, id, id⟩
theorem setCache_bounds {v : Cache} : Bounds a (b.setCache v) := h.trans ⟨id, id, id⟩
theorem modRestart_bounds {f : Restart → Restart} : Bounds a (b.modRestart f) := h.trans ⟨id, id, id⟩

/-- A change of the report unit that leaves its queue, or has a shorter one. -/
theorem modReport_bounds {f : Report → Report} (hf : ∀ r, (f r).queue.length ≤ r.queue.length := by exact fun _ => le_rfl) :
    Bounds a (b.modReport f) := h.trans ⟨id, (hf _).trans, id⟩

/-- A change of the path unit that leaves its host run count, or lowers it. -/
theorem modPath_bounds {f : Path → Path} (hf : ∀ p, (f p).hostRun ≤ p.hostRun := by exact fun _ => le_rfl) :
    Bounds a (b.modPath f) := h.trans ⟨id, id, (hf _).trans⟩

theorem raise_bounds {k : CauseKind} {source : Nat} : Bounds a (raise k source b) := h.web (raise_web (.refl b))

end Updates

theorem foldl_bounds {ι : Type} {a : Blocks} {f : Blocks → ι → Blocks} (hf : ∀ b i, Bounds a b → Bounds a (f b i))
    (l : List ι) : ∀ {b : Blocks}, Bounds a b → Bounds a (l.foldl f b) := by
  induction l with
  | nil => exact id
  | cons i l ih => exact fun h => ih (hf _ i h)

theorem ite_bounds {a b c : Blocks} {p : Prop} [Decidable p] (hb : Bounds a b) (hc : Bounds a c) :
    Bounds a (if p then b else c) := by
  split
  · exact hb
  · exact hc

/-- A withdrawal leaves the host run count or sets it to 0 (R182, R184). -/
theorem withdraw_hostRun (p : Path) (r : Requester) : (p.withdraw r).hostRun ≤ p.hostRun := by
  unfold Path.withdraw
  split
  · dsimp only
    split
    · exact Nat.zero_le _
    · exact le_rfl
  · exact le_rfl

section Work
variable {a b : Blocks} (h : Bounds a b) (x : Ctx)
include h

/-! ### The retirement queue -/

/-- A record joins the queue only where fewer than 8 wait (R159). -/
theorem queueRecord_bounds {r : OutRecord} : Bounds a (queueRecord r b) := by
  unfold queueRecord
  split
  · rename_i room
    have joined : Bounds a (b.modReport fun p => { p with queue := p.queue ++ [r] }) :=
      by
      refine h.trans ⟨id, fun _ => ?_, id⟩
      simp only [Blocks.modReport_report, List.length_append, List.length_singleton]
      exact room
    exact ite_bounds (raise_bounds joined) joined
  · exact raise_bounds (modReport_bounds h fun p => by unfold loseRecord; split <;> exact le_rfl)

theorem reportRetired_bounds {g : Segment} : Bounds a (reportRetired g b) := queueRecord_bounds (modReport_bounds h)

theorem reportRejected_bounds {id : BitVec 16} {slot : Nat} {reason : RejectReason} :
    Bounds a (reportRejected id slot reason b) := queueRecord_bounds (modReport_bounds h)

/-! ### The setting cache -/

theorem tellStaged_bounds {r : Answer} : Bounds a (tellStaged r b) := modPlan_bounds h

theorem lookupStaged_bounds {n : Nat} : Bounds a (lookupStaged n b) := by
  unfold lookupStaged
  split
  · exact raise_bounds (tellStaged_bounds (setCache_bounds h))
  · exact tellStaged_bounds (setCache_bounds h)

theorem retryLookup_bounds : Bounds a (retryLookup b) := by
  unfold retryLookup
  split
  · exact h
  · split
    · exact h
    · exact tellStaged_bounds (setCache_bounds h)

theorem claimOwed_bounds {o : Option ContOwed} : Bounds a (claimOwed o b) := by
  unfold claimOwed claimRef
  split
  · split
    · exact modCache_bounds h
    · exact h
  · exact h

theorem releaseRef_bounds {r : Option SettingRef} : Bounds a (releaseRef r b) := by
  unfold releaseRef releaseEntry
  split
  · exact ite_bounds h (ite_bounds (retryLookup_bounds (modCache_bounds (modCache_bounds h))) (modCache_bounds h))
  · exact h

theorem supersedeUnmounted_bounds {gone : Fin 16 → Bool} : Bounds a (supersedeUnmounted gone b) :=
  foldl_bounds (fun _ _ h => modCache_bounds h) _ h

theorem withdrawFetch_bounds {e : Fin 8} : Bounds a (withdrawFetch e b) :=
  ite_bounds (modPath_bounds h fun p => withdraw_hostRun p .cache) h

theorem restartFetch_bounds {e : Fin 8} : Bounds a (restartFetch e b) := modCache_bounds (withdrawFetch_bounds h)

/-! ### The track unit -/

omit h in
/-- A succession is the closure and the admission, and the web's work on what the track then holds. -/
theorem succeed_web (advance : Bool) (g s : Segment) (b : Blocks) :
    WebWork (b.modTrack fun t => joinTrack x.motion.h s (modSeg g.seq (closeSeg s.head) t)) (succeed x advance g s b) :=
  trigger_web (evaluateMoved_web (refreshBehind_web (handAdmission_web (handClosure_web (.refl _) x) x) x) x) x

theorem succeed_bounds {advance : Bool} {g s : Segment} : Bounds a (succeed x advance g s b) :=
  (modTrack_bounds h).web (succeed_web x advance g s b)

theorem admitStarved_bounds {advance : Bool} {g : Segment} {p : Nat} : Bounds a (admitStarved x advance g p b) :=
  ite_bounds (raise_bounds (modTrack_bounds (succeed_bounds h x))) (raise_bounds (succeed_bounds h x))

theorem admitStaged_bounds {advance : Bool} {g : Segment} {o : StagedOrder} {p : Nat} :
    Bounds a (admitStaged x advance g o p b) := succeed_bounds (modPlan_bounds (modTrack_bounds h)) x

theorem deferTo_bounds {forCache : Bool} {q : Nat} : Bounds a (deferTo forCache q b) := modTrack_bounds h

theorem takeBoundary_bounds {p : Nat} : Bounds a (takeBoundary x p b) := by
  unfold takeBoundary
  split
  · exact h
  · refine ite_bounds (ite_bounds (deferTo_bounds h) (raise_bounds (deferTo_bounds h))) ?_
    split
    · exact succeed_bounds (modTrack_bounds h) x
    · exact admitStarved_bounds h x
    · split
      · exact admitStaged_bounds h x
      · exact admitStaged_bounds h x
      · exact (modTrack_bounds h).web (refreshBehind_web (.refl _) x)
      · exact deferTo_bounds h

theorem shortenOwed_bounds {minOrder q : Nat} {c : ContOwed} {n : Int} : Bounds a (shortenOwed minOrder q c n b) :=
  ite_bounds (modTrack_bounds (releaseRef_bounds h)) (modTrack_bounds h)

omit h in
theorem dropSeam_seams (e : PendingSeam) (t : Track) : (dropSeam e t).seams.length ≤ t.seams.length :=
  List.length_filter_le ..

theorem truncateAt_bounds {g : Segment} {e : PendingSeam} : Bounds a (truncateAt x g e b) := by
  unfold truncateAt
  dsimp only
  refine succeed_bounds (claimOwed_bounds (ite_bounds (Bounds.web ?_ (cancelTruncated_web (.refl _))) ?_)) x
  all_goals exact modTrack_bounds h (by exact fun t => dropSeam_seams e (modSeg g.seq _ t))

theorem seamAtBoundary_bounds {g : Segment} {e : PendingSeam} : Bounds a (seamAtBoundary x g e b) := by
  have dropped := modTrack_bounds h fun t => dropSeam_seams e t
  unfold seamAtBoundary
  refine ite_bounds ?_ (succeed_bounds dropped x)
  dsimp only
  split
  · exact shortenOwed_bounds (succeed_bounds (modTrack_bounds dropped) x)
  · exact succeed_bounds (modTrack_bounds dropped) x

theorem coverSeam_bounds {g : Segment} {e : PendingSeam} : Bounds a (coverSeam x g e b) := by
  unfold coverSeam
  dsimp only
  split
  · exact shortenOwed_bounds (modTrack_bounds h (by exact fun t => dropSeam_seams e (modSeg g.seq _ t)))
  · exact modTrack_bounds h (by exact fun t => dropSeam_seams e (modSeg g.seq _ t))

theorem absorbSeam_bounds {g : Segment} {e : PendingSeam} : Bounds a (absorbSeam x g e b) :=
  raise_bounds (modTrack_bounds h fun _ => (List.length_map ..).le)

theorem meetSeam_bounds {g : Segment} {e : PendingSeam} : Bounds a (meetSeam x g e b) :=
  ite_bounds (seamAtBoundary_bounds h x) (ite_bounds (coverSeam_bounds h x)
    (ite_bounds (truncateAt_bounds h x) (absorbSeam_bounds h x)))

theorem resolveRejected_bounds : Bounds a (resolveRejected x b) := by
  unfold resolveRejected
  split
  · exact admitStarved_bounds h x
  · exact h

omit h in
/-- A WAITING boundary is resolved before a seam is met (R31). -/
theorem takeSeam_eq (e : PendingSeam) (b : Blocks) : takeSeam x e b = match (resolveRejected x b).track.entering with
    | some g => evaluateWants x (meetSeam x g e (resolveRejected x b))
    | none => resolveRejected x b := rfl

theorem takeSeam_bounds {e : PendingSeam} : Bounds a (takeSeam x e b) := by
  have resolved := resolveRejected_bounds h x
  rw [takeSeam_eq]
  split
  · exact (meetSeam_bounds resolved x).web (evaluateWants_web (.refl _) x)
  · exact resolved

theorem retire_bounds {g : Segment} : Bounds a (retire x b g) := by
  have left := modTrack_bounds (f := fun t => { t with
    segs := t.segs.filter fun s => s.seq ≠ g.seq
    seams := t.seams.filter fun e => e.absorbedBy ≠ some g.seq }) h fun t => List.length_filter_le ..
  have handed := releaseRef_bounds (r := g.setting) (reportRetired_bounds (g := g) left)
  have triggered := handed.web (trigger_web (cancelRetired_web (q := g.seq) (.refl _)) x)
  exact ite_bounds (triggered.web (evaluateMoved_web (.refl _) x)) (triggered.web (evaluateWants_web (.refl _) x))

theorem starvedCheck_bounds : Bounds a (starvedCheck x b) := by
  unfold starvedCheck
  split
  · exact ite_bounds (modTrack_bounds h) h
  · exact h

omit h in
theorem takeDue_bounds : ∀ (n : Nat) (tried : Bool) {b : Blocks}, Bounds a b → Bounds a (takeDue x n tried b) := by
  intro n
  induction n with
  | zero => exact fun _ _ h => h
  | succ n ih =>
    intro tried b h
    unfold takeDue
    split
    · exact ite_bounds (ih _ (takeSeam_bounds h x)) (ih _ (takeBoundary_bounds h x))
    · exact ih _ (takeSeam_bounds h x)
    · exact ih _ (takeBoundary_bounds h x)
    · exact h

theorem trackAdvance_bounds : Bounds a (trackAdvance x b) :=
  takeDue_bounds x _ _ (starvedCheck_bounds (foldl_bounds (fun _ _ h => retire_bounds h x) _ h) x)

omit h in
theorem insertSeam_length (d : Nat) (l : List PendingSeam) : (insertSeam d l).length = l.length + 1 := by
  have parts := congrArg List.length (List.takeWhile_append_dropWhile (p := fun e : PendingSeam => decide (e.due ≤ d)) (l := l))
  simp only [List.length_append] at parts
  simp only [insertSeam, List.length_append, List.length_singleton]
  omega

/-- A seam joins the list only where fewer than 4 are held (R33). -/
theorem offerSeam_bounds {d : Nat} : Bounds a (offerSeam x d b) := by
  unfold offerSeam
  split
  · rename_i room
    have joined : Bounds a (b.modTrack fun t => { t with seams := insertSeam d t.seams }) :=
      h.trans ⟨fun _ => (insertSeam_length d _).trans_le room, id, id⟩
    exact joined.web (evaluateWants_web (.refl _) x)
  · exact raise_bounds (modTrack_bounds h)

theorem activeEdge_bounds : Bounds a (activeEdge x b) :=
  ite_bounds (modTrack_bounds h) (offerSeam_bounds (modTrack_bounds h) x)

theorem resolveReady_bounds : Bounds a (resolveReady x b) := by
  unfold resolveReady
  split
  · exact ite_bounds (admitStaged_bounds h x) h
  · exact h

/-! ### The plan reader and the end of a fetch -/

theorem planWord_bounds {off : Nat} {w : WriteWord} : Bounds a (planWord x off w b) :=
  ite_bounds (ite_bounds (raise_bounds h) (ite_bounds (modPlan_bounds h) (raise_bounds h))) h

theorem rejectOrder_bounds {id : BitVec 16} {slot : Nat} {reason : RejectReason} :
    Bounds a (rejectOrder id slot reason b) := raise_bounds (modPlan_bounds (reportRejected_bounds h))

theorem rejectStaged_bounds {reason : RejectReason} {o : StagedOrder} : Bounds a (rejectStaged x reason o b) :=
  resolveRejected_bounds (rejectOrder_bounds (modPlan_bounds h)) x

theorem freeingDone_bounds : Bounds a (freeingDone x b) := by
  refine ite_bounds ?_ h
  dsimp only
  split
  · exact ite_bounds (lookupStaged_bounds (modPlan_bounds (modPlan_bounds h))) (modPlan_bounds (modPlan_bounds h))
  · exact rejectOrder_bounds (modPlan_bounds h)
  · exact modPlan_bounds h

theorem handReady_bounds {e : Fin 8} : Bounds a (handReady x e b) := by
  have rebuilt (l : List Nat) {c} (h : Bounds a c) : Bounds a (l.foldl (fun b q => match b.track.find q with
      | some g => rebuildBatch x b g
      | none => b) c) := by
    refine foldl_bounds (fun b q h => ?_) l h
    split
    · exact h.web (rebuildBatch_web (.refl _) x)
    · exact h
  unfold handReady
  dsimp only
  split
  · exact (resolveReady_bounds (modPlan_bounds (rebuilt _ (modTrack_bounds h))) x).web (evaluateWants_web (.refl _) x)
  · exact (rebuilt _ (modTrack_bounds h)).web (evaluateWants_web (.refl _) x)

theorem fetchFailed_bounds {e : Fin 8} {reason : RejectReason} : Bounds a (fetchFailed x e reason b) := by
  have failed := modTrack_bounds (f := loseRefs e) (modCache_bounds (f := Cache.failEntry e) (withdrawFetch_bounds (e := e) h))
  unfold fetchFailed
  dsimp only
  split
  · exact retryLookup_bounds (rejectStaged_bounds failed x)
  · exact retryLookup_bounds failed

theorem fetchReady_bounds {e : Fin 8} {t : Setting} : Bounds a (fetchReady x e t b) := by
  unfold fetchReady
  dsimp only
  split
  · exact retryLookup_bounds (handReady_bounds (modCache_bounds h) x)
  · exact handReady_bounds (modCache_bounds h) x

theorem fetchDone_bounds {e : Fin 8} {ws : List Word} : Bounds a (fetchDone x e ws b) := by
  unfold fetchDone
  dsimp only
  split
  · exact fetchReady_bounds h x
  · exact fetchFailed_bounds (modCache_bounds h) x

theorem fetchBurst_bounds {ws : List Word} : Bounds a (fetchBurst x ws b) := by
  unfold fetchBurst
  split
  · exact h
  · exact ite_bounds (modCache_bounds h) (fetchDone_bounds h x)

theorem recordWritten_bounds {n : Nat} : Bounds a (recordWritten x n b) := by
  unfold recordWritten
  split
  · exact h
  · exact ite_bounds (modCache_bounds h) (ite_bounds (restartFetch_bounds h) (fetchFailed_bounds h x))

theorem restoreClaim_bounds {n : Nat} : Bounds a (restoreClaim b n) := by
  unfold restoreClaim
  dsimp only
  split
  · exact ite_bounds (lookupStaged_bounds (modTrack_bounds h)) (modTrack_bounds h)
  · exact ite_bounds (tellStaged_bounds (modTrack_bounds (setCache_bounds h))) (modTrack_bounds (setCache_bounds h))

theorem restoreClaims_bounds : Bounds a (restoreClaims b) := by
  have claimed := foldl_bounds (fun _ n h => restoreClaim_bounds h (n := n)) (restoredNumbers b.track.segs) h
  unfold restoreClaims
  dsimp only
  split
  · exact ite_bounds claimed (lookupStaged_bounds claimed)
  · exact claimed

/-! ### A unit event and its takers -/

theorem takeAdvance_bounds {entering : Bool} {t : Taker} : Bounds a (takeAdvance x entering b t) := by
  cases t with
  | motion => exact ite_bounds (h.web (modOven_web (.refl b))) h
  | track => exact trackAdvance_bounds h x
  | station k => exact h.web (stationAdvance_web (.refl b) x)
  | cues => exact h.web (fireDue_web (.refl b) x)
  | oven => exact h.web (ovenAdvance_web (.refl b) x)
  | restart => exact h.web (restartAdvance_web (.refl b) x)

theorem takeReturn_bounds {entering : Bool} {t : Taker} : Bounds a (takeReturn x entering b t) := by
  cases t with
  | motion => exact ite_bounds (h.web (modOven_web (.refl b))) h
  | station k => exact h.web (repeatBoundary_web (.refl b) x)
  | track | cues | oven | restart => exact h

theorem handMove_bounds {entering : Bool} {order : List Taker} {v : Move} : Bounds a (handMove x entering order v b) := by
  cases v with
  | advance => exact foldl_bounds (fun _ _ h => takeAdvance_bounds h x) _ h
  | ret => exact foldl_bounds (fun _ _ h => takeReturn_bounds h x) _ h
  | back => exact ite_bounds (raise_bounds h) h
  | lostForward => exact raise_bounds (takeAdvance_bounds h x)
  | lostBackward => exact raise_bounds h

/-! ### The host port -/

theorem beginFreeze_bounds : Bounds a (beginFreeze b) := by
  have withdrawn (p : Path) : (withdrawStatus p).hostRun ≤ p.hostRun := by
    unfold withdrawStatus
    split
    · split
      · exact withdraw_hostRun ..
      · exact le_rfl
    · exact le_rfl
  exact ite_bounds h (modPath_bounds (ite_bounds (modPath_bounds (modReport_bounds h) withdrawn) h))

theorem takeAccess_bounds {y : HostAccess} : Bounds a (takeAccess x y b) := by
  have judged : Bounds a (judgeFreeze x y b) := ite_bounds (beginFreeze_bounds h) (ite_bounds (modPath_bounds h) h)
  exact ite_bounds (modPath_bounds (modReport_bounds judged)) (modPath_bounds judged)

theorem endStall_bounds : Bounds a (b.modPath endStall) :=
  modPath_bounds h fun p => by unfold endStall; split <;> exact le_rfl

theorem nextWord_bounds {w : CarriedWord} : Bounds a (nextWord x w b) := ite_bounds (modPath_bounds h) (modPath_bounds h)

theorem freePort_bounds : Bounds a (freePort b) := modPath_bounds h

/-! ### The effects of host words -/

theorem planEffect_bounds {w : CarriedWord} : Bounds a (planEffect x w b) := by
  unfold planEffect
  split
  · exact raise_bounds h
  · exact planWord_bounds h x
  · exact h

omit h in
theorem mountEffect_web (w : CarriedWord) (b : Blocks) : WebWork b (mountEffect x w b) := by
  unfold mountEffect
  split
  · exact applyImage_web (.refl b)
  · exact .refl b

theorem remountEffect_bounds {w : CarriedWord} : Bounds a (remountEffect x w b) := by
  have written := h.web (mountEffect_web x w b)
  unfold remountEffect judgeRemount
  split
  · split
    · exact written.web (refuseMount_web (modStations_web (.refl _)))
    · exact (supersedeUnmounted_bounds (written.web (modField_web (modStations_web (.refl _))))).web
        (evaluateWants_web (.refl _) x)
  · exact h

omit h in
theorem trimEffect_web (w : CarriedWord) (b : Blocks) : WebWork b (trimEffect x w b) := by
  unfold trimEffect
  split
  · exact takeTrim_web (mountEffect_web x w b)
  · exact .refl b

theorem pageEffect_bounds {w : CarriedWord} : Bounds a (pageEffect x w b) := by
  unfold pageEffect
  split
  · exact modReport_bounds h
  · exact h

theorem acknowledgeEffect_bounds {w : CarriedWord} : Bounds a (acknowledgeEffect x w b) := by
  unfold acknowledgeEffect
  split
  · rename_i v _
    have counted := modReport_bounds (f := fun r => { r with acks := inc16 r.acks }) h
    obtain ⟨cs, owed, e, _⟩ := clearClaim_eq x v.value (b.modReport fun r => { r with acks := inc16 r.acks })
    rw [e]
    exact counted.trans ⟨id, id, id⟩
  · exact h

theorem armingEffect_bounds {w : CarriedWord} : Bounds a (armingEffect x w b) := by
  unfold armingEffect
  split
  · exact modRestart_bounds h
  · exact h

/-! ### The completions of internal accesses -/

theorem recordDone_bounds : Bounds a (recordDone x b) := by
  unfold recordDone
  split
  · exact h
  · rename_i r rest queued
    have taken : Bounds a (b.modReport fun p => countWritten r.segment { p with
        full := p.full.set p.writeIndex true
        queue := rest
        recordWrite := none
        writeIndex := nextSlot x.cfg.outcomeSlots p.writeIndex }) := by
      refine h.trans ⟨id, fun bound => ?_, id⟩
      rw [queued, List.length_cons] at bound
      simp only [Blocks.modReport_report, countWritten]
      split <;> exact Nat.le_of_succ_le bound
    unfold fillStall
    split
    · exact endStall_bounds (modReport_bounds taken)
    all_goals exact taken

theorem mapRead_bounds {ws : List Word} : Bounds a (mapRead x ws b) := by
  unfold mapRead
  split
  · exact h
  · exact ite_bounds (modRestart_bounds (modReport_bounds h)) (modRestart_bounds (modReport_bounds h))

theorem modArming_bounds {f : Arming → Arming} : Bounds a (modArming f b) := modRestart_bounds h

theorem refuseArming_bounds {code : ResultCode} {id : BitVec 16} : Bounds a (refuseArming x code id b) :=
  modRestart_bounds h

theorem anchorRead_bounds {ws : List Word} : Bounds a (anchorRead x ws b) := by
  unfold anchorRead
  split
  · exact h
  · refine ite_bounds (modRestart_bounds h) ?_
    split <;> exact modRestart_bounds h

/-! ### The end of a step -/

theorem requestIfFree_bounds {q : Requester} {y : Option Access} : Bounds a (requestIfFree q y b) := by
  rw [requestIfFree_path]
  exact h.trans ⟨id, id, id⟩

theorem startTake_bounds : Bounds a (startTake b) := ite_bounds (modPlan_bounds h) h

theorem startRecord_bounds {c : Anchor} : Bounds a (startRecord c b) := by
  unfold startRecord
  split
  · refine ite_bounds ?_ (modReport_bounds h)
    split
    · exact h
    · exact modReport_bounds h
  · exact h

theorem startRewrite_bounds : Bounds a (startRewrite x b) := ite_bounds (modReport_bounds (modReport_bounds h)) h

/-- The host is granted beside a waiting internal request only below a run of 4 (R182). -/
theorem arbitrate_bounds {w : Weigh} : Bounds a (arbitrate x w b) := by
  have host (n : Nat) (hn : b.path.hostRun ≤ 4 → n ≤ 4) : Bounds a (grantHost x b n) := by
    unfold grantHost
    split
    · exact h.trans ⟨id, id, hn⟩
    · exact h
  have internal (r : Requester) : Bounds a (grantInternal b r) := by
    unfold grantInternal
    split
    · exact h.trans ⟨id, id, fun _ => Nat.zero_le 4⟩
    · exact h
  unfold arbitrate grantAmong
  split
  · split
    · exact host _ id
    · split
      · rename_i below
        exact host _ fun _ => below
      · exact internal _
    · exact internal _
    · exact h
  · exact h

theorem captureAtGrant_bounds : Bounds a (captureAtGrant x b) := by
  rw [captureAtGrant_eq]
  exact h.trans ⟨id, id, id⟩

theorem settle_bounds {w : Weigh} : Bounds a (settle x w b) := by
  have cache : Bounds a (pumpCache x (pumpRestart x b)) := requestIfFree_bounds (requestIfFree_bounds h)
  have plan : Bounds a (pumpPlan x (pumpCache x (pumpRestart x b))) := requestIfFree_bounds (startTake_bounds cache)
  exact captureAtGrant_bounds (arbitrate_bounds (requestIfFree_bounds (startRewrite_bounds (startRecord_bounds plan) x)) x) x

end Work

/-! ### Arming results -/

theorem armPath_hostRun (p : Path) : (armPath p).hostRun ≤ p.hostRun :=
  (withdraw_hostRun ..).trans ((withdraw_hostRun ..).trans (withdraw_hostRun ..))

theorem coldResult_bounds {b : Blocks} {s : State} (h : Bounds b s.blk) (code : ResultCode) (y : Arming) :
    Bounds b (coldResult code y s).blk := by
  have cold : Bounds b ((coldBlocks (parseAnchor y.anchor) code y s.blk).modTrack (joinTrack 0 (Segment.blank 0))) :=
    h.trans ⟨fun _ => Nat.zero_le 4, fun _ => Nat.zero_le 8, (armPath_hostRun s.blk.path).trans⟩
  exact cold.web (startCycle_web (.refl _) _)

/-- A snapshot header has room for 4 pending seams (R198). -/
theorem decodeSeams_length (segs : List Segment) (ws : List Word) : (decodeSeams segs ws).length ≤ 4 :=
  List.length_filterMap_le ..

/-- The restored queue holds at most 8 records (R194). -/
theorem decodeSnapshot_queue (ws : List Word) : (decodeSnapshot ws).queue.length ≤ 8 := by
  simp only [decodeSnapshot, List.length_map, List.length_range, snapshotQueueRead]
  omega

theorem raiseBacklog_bounds {a b : Blocks} (h : Bounds a b) : Bounds a (raiseBacklog b) := ite_bounds (raise_bounds h) h

theorem warmResult_bounds {b : Blocks} {s : State} (h : Bounds b s.blk) (ws : List Word) (y : Arming) :
    Bounds b (warmResult (decodeSnapshot ws) y s).blk := by
  have warm (x : Ctx) : Bounds b (warmBlocks x (decodeSnapshot ws) y s.blk) :=
    h.trans ⟨fun _ => decodeSeams_length .., fun _ => decodeSnapshot_queue ws, (armPath_hostRun s.blk.path).trans⟩
  have placed (x : Ctx) : Bounds b (restoreProbes x (placeStations x (warmBlocks x (decodeSnapshot ws) y s.blk))) :=
    (warm x).web (restoreProbes_web (placeStations_web (.refl _) x) x)
  rw [warmResult_eq]
  dsimp only [State.setBlk_blk]
  exact (restoreClaims_bounds (raiseBacklog_bounds (placed _))).web (startCycle_web (.refl _) _)

theorem mountRead_bounds {b : Blocks} {s : State} (h : Bounds b s.blk) (ws : List Word) :
    Bounds b (mountRead ws s).blk := by
  unfold mountRead
  split
  · exact h
  · dsimp only
    split
    · exact modArming_bounds h
    · unfold mountDone
      split
      · exact refuseArming_bounds h _
      · split
        · exact coldResult_bounds h ..
        · split
          · exact refuseArming_bounds h _
          · rw [State.setBlk_blk]
            exact modRestart_bounds (modArming_bounds h)

theorem snapshotRead_bounds {b : Blocks} {s : State} (h : Bounds b s.blk) (ws : List Word) :
    Bounds b (snapshotRead ws s).blk := by
  unfold snapshotRead
  split
  · exact h
  · dsimp only
    split
    · exact modArming_bounds h
    · split
      · exact refuseArming_bounds h _
      · split
        · exact warmResult_bounds h ..
        · exact coldResult_bounds h ..

/-! ### Every command -/

theorem decided_bounds {b : Blocks} {s : State} (h : Bounds b s.blk) (pre : Requests) (decision : Decision) :
    Bounds b (s.decided pre decision).blk := settle_bounds h _

theorem blockStep_bounds {f : Ctx → Blocks → Blocks} {s : State} (h : Bounds s.blk (f s.ctx s.blk)) :
    Bounds s.blk (blockStep f s).blk := decided_bounds h ..

theorem completeWord_bounds {c : WordClass} {decision : Decision} {effect : Ctx → CarriedWord → Blocks → Blocks} {s : State}
    (h : ∀ x w b, Bounds s.blk b → Bounds s.blk (effect x w b)) : Bounds s.blk (completeWord c decision effect s).blk := by
  unfold completeWord
  split
  · exact .refl _
  · split
    · exact decided_bounds (nextWord_bounds (h _ _ _ (ite_bounds (modPath_bounds (.refl _))
        (modPath_bounds (modPath_bounds (.refl _))))) _) ..
    · exact .refl _

theorem completeAccess_bounds {kinds : List AccessKind} {decision : Decision} {effect : List Word → State → State} {s : State}
    (h : ∀ ws u, Bounds s.blk u.blk → Bounds s.blk (effect ws u).blk) :
    Bounds s.blk (completeAccess kinds decision effect s).blk := by
  have free : Bounds s.blk (freePort s.blk) := freePort_bounds (.refl _)
  unfold completeAccess
  split
  · split
    · refine decided_bounds ?_ ..
      split
      · exact free
      · exact h _ _ free
    · exact .refl _
  · exact .refl _
  · exact .refl _

theorem onBlocks_bounds {kinds : List AccessKind} {decision : Decision} {f : Ctx → List Word → Blocks → Blocks} {s : State}
    (h : ∀ x ws b, Bounds s.blk b → Bounds s.blk (f x ws b)) :
    Bounds s.blk (completeAccess kinds decision (onBlocks f) s).blk :=
  completeAccess_bounds fun ws u hu => h u.ctx ws u.blk hu

theorem unitEvent_bounds {b : Blocks} {s : State} (h : Bounds b s.blk) (order : List Taker) (d : Travel) :
    Bounds b (unitEvent order d s).blk := by
  have marked : Bounds b (markMoved s.blk) := h.web (markMoved_web (.refl _))
  unfold unitEvent
  dsimp only
  split
  · exact handMove_bounds marked _
  · exact marked

theorem pulse_bounds {b : Blocks} {s : State} (h : Bounds b s.blk) (order : List Taker) (d : Travel) :
    Bounds b (pulse order d s).blk := by
  have moved (m : Motion) : Bounds b (s.setMotion m).blk := h
  unfold pulse
  dsimp only
  split
  · exact decided_bounds (unitEvent_bounds (moved _) ..) ..
  · exact h

theorem encoderPulse_bounds {encA encB : Bool} {order : List Taker} {s t : State}
    (h : execEncoderPulse encA encB order s = .next t) : Bounds s.blk t.blk := by
  have moved (m : Motion) : Bounds s.blk (s.setMotion m).blk := .refl s.blk
  unfold execEncoderPulse at h
  dsimp only at h
  split at h <;> cases h
  · exact .refl _
  · exact pulse_bounds (moved _) ..
  · exact pulse_bounds (moved _) ..
  · exact .refl _

/-- A reset leaves no seam, no record and no run. -/
theorem reset_bounds {a : Blocks} {p : Path} (run : p.hostRun = 0) : Bounds a (resetBlocks p) :=
  ⟨fun _ => Nat.zero_le 4, fun _ => Nat.zero_le 8, fun _ => run.trans_le (Nat.zero_le 4)⟩

/-- Every command keeps the bounds. -/
theorem exec_bounds (c : Instr) (s t : State) (h : exec c s = .next t) : Bounds s.blk t.blk := by
  cases c <;>
    simp only [exec, execSpeedIntervalExpiry, execMarkPulseExpiry, execStopDetectExpiry, execSeamEdge, execLiftTimerExpiry,
      execAccountingTimerExpiry, execCycleTimerExpiry, execExchangeQuietReached, execQuietWaitTimeout, execCommandFrameSent,
      execReplyFirstCharacter, execReplyTimerExpiry, execStallTimerExpiry, execStatusTimerExpiry] at h
  case encoderPulse => exact encoderPulse_bounds h
  case stopDetectExpiry =>
    split at h <;> cases h
    · exact .refl _
    · exact decided_bounds (trigger_web (.refl _) _).bounds ..
  case speedIntervalExpiry | markPulseExpiry => cases h; exact ⟨id, id, id⟩
  case seamEdge =>
    split at h <;> cases h
    · exact blockStep_bounds (activeEdge_bounds (.refl _) _)
    · exact .refl _
  case liftTimerExpiry =>
    split at h <;> cases h
    · exact .refl _
    · exact blockStep_bounds (liftExpiry_web (.refl _) _).bounds
  case accountingTimerExpiry =>
    split at h <;> cases h
    · exact blockStep_bounds (accountingTick_web (.refl _) _).bounds
    · exact .refl _
  case cycleTimerExpiry =>
    split at h <;> cases h
    · exact .refl _
    · exact blockStep_bounds (cycleExpiry_web (.refl _) _).bounds
  case exchangeQuietReached =>
    split at h <;> cases h
    · exact blockStep_bounds (sendCommand_web (.refl _) _).bounds
    · exact .refl _
  case quietWaitTimeout =>
    split at h <;> cases h
    · exact .refl _
    · exact blockStep_bounds (missExchange_web (.refl _) _).bounds
  case commandFrameSent =>
    split at h <;> cases h
    · exact blockStep_bounds (modField_web (.refl _)).bounds
    · exact .refl _
  case replyFirstCharacter =>
    split at h <;> cases h
    · exact .refl _
    · exact blockStep_bounds (modField_web (.refl _)).bounds
  case replyTimerExpiry =>
    split at h <;> cases h
    · exact .refl _
    · exact blockStep_bounds (missExchange_web (modField_web (.refl _)) _).bounds
  case frameClosed =>
    unfold execFrameClosed at h
    split at h
    · split at h <;> cases h
      · exact blockStep_bounds (judgeFrame_web (.refl _) _).bounds
      · exact blockStep_bounds (modField_web (.refl _)).bounds
    · cases h; exact .refl _
  case stallTimerExpiry =>
    split at h <;> cases h
    · exact .refl _
    · exact blockStep_bounds (endStall_bounds (modReport_bounds (.refl _)))
  case statusTimerExpiry =>
    split at h <;> cases h
    · exact .refl _
    · exact blockStep_bounds (modReport_bounds (.refl _))
  case hostAccessPresented =>
    unfold execHostAccessPresented at h
    split at h
    · cases h
    · split at h <;> cases h
      · exact blockStep_bounds (takeAccess_bounds (.refl _) _)
      · exact .refl _
  case planWrite => cases h; exact completeWord_bounds fun x _ _ h => planEffect_bounds h x
  case settingsWrite => cases h; exact completeWord_bounds fun x _ _ h => recordWritten_bounds h x
  case mountWrite => cases h; exact completeWord_bounds fun x w b h => h.web (mountEffect_web x w b)
  case remountRequest => cases h; exact completeWord_bounds fun x _ _ h => remountEffect_bounds h x
  case trim => cases h; exact completeWord_bounds fun x w b h => h.web (trimEffect_web x w b)
  case outcomeSlotFree => cases h; exact completeWord_bounds fun _ _ _ h => modReport_bounds h
  case acknowledge => cases h; exact completeWord_bounds fun x _ _ h => acknowledgeEffect_bounds h x
  case pageSelect => cases h; exact completeWord_bounds fun x _ _ h => pageEffect_bounds h x
  case hostWordComplete | snapshotWindowWrite => cases h; exact completeWord_bounds fun _ _ _ h => h
  case armingRequest => cases h; exact completeWord_bounds fun x _ _ h => armingEffect_bounds h x
  case planReadReturned => cases h; exact onBlocks_bounds fun _ _ _ h => modPlan_bounds h
  case freeingWriteComplete => cases h; exact onBlocks_bounds fun x _ _ h => freeingDone_bounds h x
  case settingBurstReturned => cases h; exact onBlocks_bounds fun x _ _ h => fetchBurst_bounds h x
  case recordBurstComplete | statusBurstComplete => cases h; exact onBlocks_bounds fun _ _ _ h => modReport_bounds h
  case recordWord0Complete => cases h; exact onBlocks_bounds fun x _ _ h => recordDone_bounds h x
  case outcomeMapReadReturned => cases h; exact onBlocks_bounds fun x _ _ h => mapRead_bounds h x
  case snapshotBurstComplete | snapshotClosingComplete | resultWordWritten =>
    cases h; exact onBlocks_bounds fun _ _ _ h => modRestart_bounds h
  case anchorBurstReturned => cases h; exact onBlocks_bounds fun x _ _ h => anchorRead_bounds h x
  case mountBurstReturned => cases h; exact completeAccess_bounds fun ws _ h => mountRead_bounds h ws
  case snapshotReadReturned => cases h; exact completeAccess_bounds fun ws _ h => snapshotRead_bounds h ws
  case powerOnReset => cases h; exact reset_bounds rfl
  case resetLine => cases h; exact settle_bounds (reset_bounds rfl) _

/-- Every step keeps the bounds. -/
theorem step_bounds {s t : State} (h : step s = .next t) : Bounds s.blk t.blk := by
  unfold step at h
  split at h
  · cases h; exact .refl _
  · rename_i c rest _
    exact exec_bounds c (s.setPending rest) t h

/-- Settles O9: every step keeps the bounds of the pending seam list, of the retirement queue and of the host run
count. -/
theorem storesStayBounded : Obligations.StoresStayBounded :=
  ⟨fun _ _ h hs => (step_bounds hs).seams h, fun _ _ h hs => (step_bounds hs).queue h,
    fun _ _ h hs => (step_bounds hs).run h⟩

end Sys2Proof.Machine
end

section
/-! Fields of packed words, the flag POSITION_UNCERTAIN, and the edges of the seam detector. -/

namespace Sys2Proof.Machine

/-! ### Fields of packed words (R198) -/

/-- A bit of a packed word is that of one of its fields. -/
theorem bit_pack (l : List (Nat × Nat × Nat)) {i : Nat} (hi : i < 32) : bit (pack l) i =
    l.any fun f => decide (f.1 ≤ i ∧ i < f.1 + f.2.1) && f.2.2.testBit (i - f.1) := by
  induction l with
  | nil => simp [pack, bit]
  | cons f r ih =>
    obtain ⟨lo, n, v⟩ := f
    simp only [bit] at ih
    simp only [pack, bit, BitVec.getLsbD_or, BitVec.getLsbD_ofNat, hi, decide_true, Bool.true_and, Nat.testBit_shiftLeft,
      Nat.testBit_mod_two_pow, List.any_cons, ih]
    congr 1
    by_cases h : lo ≤ i
    · have below : i - lo < n ↔ i < lo + n := by omega
      simp [h, below]
    · simp [h]

/-- A field of a word lies apart from every other of a list. -/
def FieldApart (l : List (Nat × Nat × Nat)) (lo n v : Nat) : Prop :=
  (lo, n, v) ∈ l ∧ lo + n ≤ 32 ∧ ∀ f ∈ l, f = (lo, n, v) ∨ f.1 + f.2.1 ≤ lo ∨ lo + n ≤ f.1

theorem bit_pack_field {l : List (Nat × Nat × Nat)} {lo n v : Nat} (h : FieldApart l lo n v) {j : Nat} (hj : j < n) :
    bit (pack l) (lo + j) = v.testBit j := by
  obtain ⟨mem, fits, apart⟩ := h
  rw [bit_pack l (by omega)]
  cases hv : v.testBit j with
  | true =>
    rw [List.any_eq_true]
    exact ⟨_, mem, by simp [hj, hv]⟩
  | false =>
    rw [List.any_eq_false]
    intro f hf
    rcases apart f hf with rfl | below | above
    · simp [hv]
    · simp; omega
    · simp; omega

theorem fld_pack_field {l : List (Nat × Nat × Nat)} {lo n v : Nat} (h : FieldApart l lo n v) :
    fld (pack l) lo n = v % 2 ^ n := by
  refine Nat.eq_of_testBit_eq fun j => ?_
  simp only [fld, Nat.testBit_mod_two_pow, Nat.testBit_shiftRight]
  by_cases hj : j < n
  · rw [← bit_pack_field h hj]
    rfl
  · simp [hj]

theorem testBit_boolNat (b : Bool) : (boolNat b).testBit 0 = b := by cases b <;> rfl

/-! ### The flag POSITION_UNCERTAIN (R44) -/

/-- POSITION_UNCERTAIN is bit 5 of the flags of Table 2-1. -/
theorem testBit_positionUncertain (f : SegFlags) : f.toNat.testBit 5 = f.positionUncertain := by
  have small (b : Bool) : boolNat b ≤ 1 := by cases b <;> decide
  have late := small f.late
  have split := small f.split
  have extended := small f.extended
  have seamUnlifted := small f.seamUnlifted
  have cuesLost := small f.cuesLost
  have bit5 : f.toNat / 2 ^ 5 % 2 = boolNat f.positionUncertain := by
    have positionUncertain := small f.positionUncertain
    simp only [SegFlags.toNat]
    omega
  rw [Nat.testBit_eq_decide_div_mod_eq, bit5]
  cases f.positionUncertain <;> rfl

theorem segmentWord4_flags (g : Segment) (number : Nat) : bit (segmentWord4 g number) 14 = g.flags.positionUncertain := by
  rw [← testBit_positionUncertain]
  exact bit_pack_field (lo := 9) (n := 9) (j := 5) (by simp [FieldApart]) (by decide)

/-- Settles O24: a raise that latches TRACK_UNCERTAIN flags every segment held; no other raise changes the track; new
segments and the record of an outcome. -/
theorem uncertaintyFlagsSegmentsHeld : Obligations.UncertaintyFlagsSegmentsHeld := by
  refine ⟨fun b source live free => ?_, fun b source e latched => ?_, fun k source level b other => ?_,
    fun h g t n hn => ?_, fun s o c a g p => ⟨rfl, rfl, ?_, rfl, rfl⟩, fun g => segmentWord4_flags g _⟩
  · simp only [raise, raiseAt, if_pos live, free]
    rfl
  · simp only [raise, raiseAt, latched, raiseLatched]
    split
    · rfl
    · rfl
  · exact raiseAt_track_other k source level b other
  · simp only [joinTrack, List.drop_left, List.mem_singleton] at hn
    rw [hn]
  · unfold truncatingSeam
    dsimp only
    split <;> rfl

/-! ### Evaluations of wants -/

/-- An evaluation of a want changes the stations alone. -/
theorem evaluateWant_eq (x : Ctx) (b : Blocks) (k : Fin 16) :
    evaluateWant x b k = b.setStations (evaluateWant x b k).stations := by
  simp only [evaluateWant]
  split <;> rfl

theorem foldl_evaluateWant_eq (x : Ctx) (l : List (Fin 16)) :
    ∀ b : Blocks, l.foldl (evaluateWant x) b = b.setStations (l.foldl (evaluateWant x) b).stations := by
  induction l with
  | nil => exact fun _ => rfl
  | cons k l ih =>
    intro b
    rw [List.foldl_cons, ih, evaluateWant_eq]
    rfl

theorem evaluateWants_eq (x : Ctx) (b : Blocks) : evaluateWants x b = b.setStations (evaluateWants x b).stations :=
  foldl_evaluateWant_eq x screens b

theorem evaluateMoved_eq (x : Ctx) (old : Track) (b : Blocks) :
    evaluateMoved x old b = b.setStations (evaluateMoved x old b).stations := foldl_evaluateWant_eq x _ b

/-- What a change of the stations alone leaves as it is. -/
structure OffStations (a b : Blocks) : Prop where
  causes : b.causes = a.causes
  track : b.track = a.track
  plan : b.plan = a.plan
  cache : b.cache = a.cache
  cues : b.cues = a.cues
  report : b.report = a.report
  restart : b.restart = a.restart

theorem OffStations.of_setStations {a b : Blocks} {t : Stations} (h : b = a.setStations t) : OffStations a b := by
  rw [h]
  exact ⟨rfl, rfl, rfl, rfl, rfl, rfl, rfl⟩

section Fields
variable (x : Ctx) (old : Track) (b : Blocks)
@[simp] theorem evaluateWants_causes : (evaluateWants x b).causes = b.causes :=
  (OffStations.of_setStations (evaluateWants_eq x b)).causes
@[simp] theorem evaluateWants_track : (evaluateWants x b).track = b.track :=
  (OffStations.of_setStations (evaluateWants_eq x b)).track
@[simp] theorem evaluateWants_plan : (evaluateWants x b).plan = b.plan :=
  (OffStations.of_setStations (evaluateWants_eq x b)).plan
@[simp] theorem evaluateWants_cache : (evaluateWants x b).cache = b.cache :=
  (OffStations.of_setStations (evaluateWants_eq x b)).cache
@[simp] theorem evaluateWants_cues : (evaluateWants x b).cues = b.cues :=
  (OffStations.of_setStations (evaluateWants_eq x b)).cues
@[simp] theorem evaluateWants_report : (evaluateWants x b).report = b.report :=
  (OffStations.of_setStations (evaluateWants_eq x b)).report
@[simp] theorem evaluateWants_restart : (evaluateWants x b).restart = b.restart :=
  (OffStations.of_setStations (evaluateWants_eq x b)).restart
@[simp] theorem evaluateMoved_causes : (evaluateMoved x old b).causes = b.causes :=
  (OffStations.of_setStations (evaluateMoved_eq x old b)).causes
@[simp] theorem evaluateMoved_track : (evaluateMoved x old b).track = b.track :=
  (OffStations.of_setStations (evaluateMoved_eq x old b)).track
@[simp] theorem evaluateMoved_plan : (evaluateMoved x old b).plan = b.plan :=
  (OffStations.of_setStations (evaluateMoved_eq x old b)).plan
@[simp] theorem evaluateMoved_cache : (evaluateMoved x old b).cache = b.cache :=
  (OffStations.of_setStations (evaluateMoved_eq x old b)).cache
@[simp] theorem evaluateMoved_cues : (evaluateMoved x old b).cues = b.cues :=
  (OffStations.of_setStations (evaluateMoved_eq x old b)).cues
@[simp] theorem evaluateMoved_report : (evaluateMoved x old b).report = b.report :=
  (OffStations.of_setStations (evaluateMoved_eq x old b)).report
@[simp] theorem evaluateMoved_restart : (evaluateMoved x old b).restart = b.restart :=
  (OffStations.of_setStations (evaluateMoved_eq x old b)).restart
end Fields

/-! ### The seam detector (R32, R33) -/

/-- In a list in due order, the entries due at or below a position come first. -/
theorem takeWhile_due {l : List PendingSeam} (sorted : l.Pairwise fun a b => a.due ≤ b.due) (d : Nat) :
    l.takeWhile (fun e => decide (e.due ≤ d)) = l.filter (fun e => decide (e.due ≤ d)) ∧
      l.dropWhile (fun e => decide (e.due ≤ d)) = l.filter fun e => decide (d < e.due) := by
  induction l with
  | nil => exact ⟨rfl, rfl⟩
  | cons e l ih =>
    obtain ⟨first, rest⟩ := List.pairwise_cons.mp sorted
    obtain ⟨taken, dropped⟩ := ih rest
    by_cases h : e.due ≤ d
    · simp [h, taken, dropped]
    · have beyond : ∀ e' ∈ l, d < e'.due := fun e' he' => lt_of_lt_of_le (not_le.mp h) (first e' he')
      have none_due : l.filter (fun e => decide (e.due ≤ d)) = [] :=
        List.filter_eq_nil_iff.mpr fun e' he' => by simpa using beyond e' he'
      have all_beyond : l.filter (fun e => decide (d < e.due)) = l :=
        List.filter_eq_self.mpr fun e' he' => by simpa using beyond e' he'
      simp [not_le.mp h, none_due, all_beyond]

theorem insertSeam_eq {l : List PendingSeam} (sorted : l.Pairwise fun a b => a.due ≤ b.due) (d : Nat) : insertSeam d l =
    l.filter (fun e => decide (e.due ≤ d)) ++ ⟨d, none⟩ :: l.filter (fun e => decide (d < e.due)) := by
  obtain ⟨taken, dropped⟩ := takeWhile_due sorted d
  rw [insertSeam, taken, dropped, List.append_assoc]
  rfl

theorem insertSeam_sorted {l : List PendingSeam} (sorted : l.Pairwise fun a b => a.due ≤ b.due) (d : Nat) :
    (insertSeam d l).Pairwise fun a b => a.due ≤ b.due := by
  rw [insertSeam_eq sorted]
  refine List.pairwise_append.mpr ⟨sorted.filter _, List.pairwise_cons.mpr ⟨fun e he => ?_, sorted.filter _⟩,
    fun e he e' he' => ?_⟩
  · exact le_of_lt (of_decide_eq_true (List.mem_filter.mp he).2)
  · have due : e.due ≤ d := of_decide_eq_true (List.mem_filter.mp he).2
    rcases List.mem_cons.mp he' with rfl | he'
    · exact due
    · exact due.trans (le_of_lt (of_decide_eq_true (List.mem_filter.mp he').2))

theorem debounced_iff (x : Ctx) (t : Track) :
    debounced x t = true ↔ ∃ r, t.debounce = some r ∧ x.motion.h < r + x.cfg.seamLength := by
  unfold debounced
  cases t.debounce with
  | none => simp
  | some r => simp; omega

/-- An accepted edge offers its seam at the detector's distance (R32). -/
theorem activeEdge_accepted {x : Ctx} {b : Blocks} (accepted : debounced x b.track = false) : activeEdge x b =
    offerSeam x (position x.motion.h (x.motion.h + x.cfg.detectorDistance))
      (b.setTrack { b.track with debounce := some x.motion.h }) := by
  rw [activeEdge, accepted]
  rfl

theorem exec_activeEdge {s : State} (live : s.blk.live = true) :
    exec (.seamEdge (!s.cfg.seamFalling)) s = .next (blockStep activeEdge s) := by
  simp [exec, execSeamEdge, live]

/-- Settles O25: the edges of the seam detector, the debounce test, and the place of a seam in the list. -/
theorem seamEdgesJoinTheList : Obligations.SeamEdgesJoinTheList := by
  refine ⟨fun s live => ⟨?_, fun ignored => ?_, fun accepted room below => ?_, fun accepted full => ?_⟩, debounced_iff,
    fun d l sorted => ⟨insertSeam_eq sorted d, insertSeam_sorted sorted d⟩⟩
  · simp [exec, execSeamEdge]
  · refine ⟨_, exec_activeEdge live, ?_⟩
    have edge : activeEdge s.ctx s.blk = s.blk.setTrack { s.blk.track with
        ignoredEdges := inc16 s.blk.track.ignoredEdges } := by
      rw [activeEdge, ignored]
      rfl
    have follows := blockStep_follows activeEdge s
    rwa [edge] at follows
  · obtain ⟨⟨_, motion, mem, _, causes, track, cache, cues, _⟩, _⟩ := blockStep_follows activeEdge s
    refine ⟨_, exec_activeEdge live, ?_⟩
    rw [State.setBlk_blk, activeEdge_accepted accepted, position_of_lt (by exact below), offerSeam, if_pos (by exact room)]
      at causes track cache cues
    rw [evaluateWants_causes] at causes
    rw [evaluateWants_track] at track
    rw [evaluateWants_cache] at cache
    rw [evaluateWants_cues] at cues
    exact ⟨track, causes, cues, cache, mem, motion⟩
  · obtain ⟨⟨_, _, mem, _, causes, track, _, cues, _⟩, _⟩ := blockStep_follows activeEdge s
    refine ⟨_, exec_activeEdge live, ?_⟩
    rw [State.setBlk_blk, activeEdge_accepted accepted, offerSeam, if_neg (not_lt.mpr (by exact full))] at causes track cues
    rw [raise, raiseAt_track_other _ _ _ _ (by decide)] at track
    rw [raise, raiseAt_cues] at cues
    rw [causes]
    exact ⟨track, raiseAt_raised .seamOverflow 0 .trip _ live, cues, mem⟩

end Sys2Proof.Machine
end

section
/-! The retirement of segments: what the queue of records, the reference, the pending cues and the stations take of it
(R42, R43, R77, R89, R103, R158 to R160). -/

namespace Sys2Proof.Machine

/-! ### The retirement queue's intake (R159, R160) -/

section Raised
variable (k : CauseKind) (source : Nat) (level : Level) (b : Blocks)
@[simp] theorem raiseAt_queue : (raiseAt k source level b).report.queue = b.report.queue := by
  have h := congrArg Report.queue (raiseAt_report k source level b)
  exact h
@[simp] theorem raiseAt_retired : (raiseAt k source level b).report.retired = b.report.retired := by
  have h := congrArg Report.retired (raiseAt_report k source level b)
  exact h
@[simp] theorem raiseAt_outcomesLost : (raiseAt k source level b).report.outcomesLost = b.report.outcomesLost := by
  have h := congrArg Report.outcomesLost (raiseAt_report k source level b)
  exact h
end Raised

/-- After a raise claim in a live part state the kind is latched (R13). -/
theorem raise_latched (k : CauseKind) (source : Nat) {b : Blocks} (live : b.live = true) :
    ((raise k source b).causes.entry k).isSome = true := by
  rw [raise, (raiseAt_raised k source k.level b live).1]
  rfl

/-- The record of a segment changes the report unit, the cause set and the owed rewrite. -/
structure OffReport (a b : Blocks) : Prop where
  track : b.track = a.track
  plan : b.plan = a.plan
  cache : b.cache = a.cache
  cues : b.cues = a.cues
  stations : b.stations = a.stations
  restart : b.restart = a.restart

theorem reportRetired_off (g : Segment) (b : Blocks) : OffReport b (reportRetired g b) := by
  unfold reportRetired queueRecord
  dsimp only
  split
  · split
    · constructor <;> simp [raise, raiseAt_track_other]
    · exact ⟨rfl, rfl, rfl, rfl, rfl, rfl⟩
  · constructor <;> simp [raise, raiseAt_track_other]

theorem reportRetired_retired (g : Segment) (b : Blocks) :
    (reportRetired g b).report.retired = b.report.retired + 1 := by
  unfold reportRetired queueRecord
  dsimp only
  split
  · split
    · simp [raise]
    · rfl
  · simp [raise, loseRecord, segmentRecord]

/-- With a place free the record joins the queue at its newest end. -/
theorem reportRetired_queued (g : Segment) {b : Blocks} (room : b.report.queue.length < 8) :
    (reportRetired g b).report.queue = b.report.queue ++ [segmentRecord g] := by
  have room' : (b.modReport fun p => { p with retired := p.retired + 1 }).report.queue.length < Config.queuePlaces := room
  unfold reportRetired queueRecord
  rw [if_pos room']
  dsimp only
  split
  · simp [raise]
  · rfl

/-- With eight records waiting the record is lost, and OUTCOME_LOST is latched. -/
theorem reportRetired_lost (g : Segment) {b : Blocks} (live : b.live = true) (full : 8 ≤ b.report.queue.length) :
    (reportRetired g b).report.queue = b.report.queue ∧
    (reportRetired g b).report.outcomesLost = b.report.outcomesLost + 1 ∧
    ((reportRetired g b).causes.entry .outcomeLost).isSome = true := by
  have full' : ¬ (b.modReport fun p => { p with retired := p.retired + 1 }).report.queue.length < Config.queuePlaces :=
    Nat.not_lt.mpr full
  unfold reportRetired queueRecord
  rw [if_neg full']
  exact ⟨by simp [raise, loseRecord, segmentRecord], by simp [raise, loseRecord, segmentRecord],
    raise_latched .outcomeLost 0 (b := (b.modReport fun p => { p with retired := p.retired + 1 }).modReport _) live⟩

/-! ### The release of a reference (R77) -/

/-- A release changes the setting cache, and the plan reader where it answers a waiting lookup. -/
theorem releaseRef_eq (r : Option SettingRef) (b : Blocks) :
    releaseRef r b = (b.setPlan (releaseRef r b).plan).setCache (releaseRef r b).cache := by
  have retry (b : Blocks) : retryLookup b = (b.setPlan (retryLookup b).plan).setCache (retryLookup b).cache := by
    unfold retryLookup
    split
    · rfl
    · split <;> rfl
  unfold releaseRef
  split
  · unfold releaseEntry
    split
    · rfl
    · dsimp only
      split
      · rw [retry]
        rfl
      · rfl
  · rfl

/-- What a release leaves as it is. -/
structure OffCache (a b : Blocks) : Prop where
  track : b.track = a.track
  causes : b.causes = a.causes
  report : b.report = a.report
  cues : b.cues = a.cues
  stations : b.stations = a.stations
  restart : b.restart = a.restart

theorem releaseRef_off (r : Option SettingRef) (b : Blocks) : OffCache b (releaseRef r b) := by
  rw [releaseRef_eq]
  exact ⟨rfl, rfl, rfl, rfl, rfl, rfl⟩

theorem releaseRef_uncounted {r : Option SettingRef} (none : r.bind SettingRef.counted = none) (b : Blocks) :
    releaseRef r b = b := by
  unfold releaseRef
  rw [none]

/-- With no lookup waiting there is none to retry. -/
theorem retryLookup_idle {b : Blocks} (waiting : b.cache.waiting = none) : retryLookup b = b := by
  unfold retryLookup
  rw [waiting]

/-- With no lookup waiting a release answers none. -/
theorem releaseRef_plan (r : Option SettingRef) {b : Blocks} (waiting : b.cache.waiting = none) :
    (releaseRef r b).plan = b.plan := by
  unfold releaseRef
  split
  · unfold releaseEntry
    split
    · rfl
    · dsimp only
      split
      · rw [retryLookup_idle (by exact waiting)]
        rfl
      · rfl
  · rfl

/-- One of several references is released: the count falls. -/
theorem releaseRef_shared {r : Option SettingRef} {e : Fin 8} (counted : r.bind SettingRef.counted = some e) {b : Blocks}
    (shared : 1 < b.cache.entries[e].count) : releaseRef r b =
      b.modCache (Cache.modEntry e fun c => { c with count := c.count - 1 }) := by
  have used : b.cache.entries[e].count ≠ 0 := by omega
  have others : b.cache.entries[e].count ≠ 1 := by omega
  have left : b.cache.entries[e].count - 1 ≠ 0 := by omega
  unfold releaseRef
  simp only [counted, releaseEntry, if_neg used, if_neg others, Cache.modEntry, Bank.modify, CacheEntry.released, left,
    false_and, if_false, Blocks.modCache]

/-- The last reference is released, no lookup waiting: the entry moves to the end of the use order, and a SUPERSEDED one
becomes FREE. -/
theorem releaseRef_last {r : Option SettingRef} {e : Fin 8} (counted : r.bind SettingRef.counted = some e) {b : Blocks}
    (last : b.cache.entries[e].count = 1) (waiting : b.cache.waiting = none) : releaseRef r b =
      (b.modCache (Cache.modEntry e fun c => if c.state = .superseded
        then { c with state := .free, count := 0, restarts := 0, contents := none } else { c with count := 0 })).modCache
        (Cache.touch e) := by
  have used : b.cache.entries[e].count ≠ 0 := by omega
  unfold releaseRef
  simp only [counted, releaseEntry, if_neg used, if_pos last]
  rw [retryLookup_idle (by exact waiting)]
  simp only [Cache.modEntry, Bank.modify, CacheEntry.released, last, Nat.sub_self, true_and, CacheEntry.freed,
    Blocks.modCache]

/-! ### What a retirement does (R43) -/

/-- The trigger of a snapshot changes the restart unit alone, by what that unit holds. -/
theorem trigger_eq (x : Ctx) (a b : Blocks) (h : b.restart = a.restart) :
    trigger x b = b.setRestart (trigger x a).restart := by
  simp only [trigger, Blocks.modRestart, Blocks.setRestart_restart, h]

/-- A retiring segment and its ABSORBED seams leave the track. -/
def withdrawSeg (g : Segment) (t : Track) : Track :=
  { t with
    segs := t.segs.filter fun s => s.seq ≠ g.seq
    seams := t.seams.filter fun e => e.absorbedBy ≠ some g.seq }

/-- The blocks that wait for the wants of the screens: the segment has left, and what it held is handed on. -/
def handOn (x : Ctx) (b : Blocks) (g : Segment) : Blocks :=
  trigger x (cancelRetired g.seq (releaseRef g.setting (reportRetired g (b.modTrack (withdrawSeg g)))))

theorem retire_eq (x : Ctx) (b : Blocks) (g : Segment) : retire x b g = evaluateRetired x b.track (handOn x b g) := rfl

/-- The wants are evaluated after the rest of a retirement. -/
theorem retire_off (x : Ctx) (b : Blocks) (g : Segment) : OffStations (handOn x b g) (retire x b g) := by
  rw [retire_eq]
  unfold evaluateRetired
  split
  · exact .of_setStations (evaluateMoved_eq ..)
  · exact .of_setStations (evaluateWants_eq ..)

/-- What a retirement leaves of each block before the wants. -/
structure HandedOn (x : Ctx) (b : Blocks) (g : Segment) (c : Blocks) : Prop where
  track : c.track = withdrawSeg g b.track
  cues : c.cues = { b.cues with
    queue := b.cues.queue.filter fun p => p.seq ≠ g.seq
    cancelled := satAdd 65535 b.cues.cancelled (b.cues.queue.filter fun p => p.seq = g.seq).length }
  restart : c.restart = (trigger x b).restart
  cache : ∃ p, p.cache = b.cache ∧ p.plan = b.plan ∧ c.cache = (releaseRef g.setting p).cache ∧
    c.plan = (releaseRef g.setting p).plan
  report : ∃ p, p.report = b.report ∧ p.restart = b.restart ∧ c.report = (reportRetired g p).report ∧
    c.causes = (reportRetired g p).causes
  stations : c.stations = b.stations

theorem handOn_handedOn (x : Ctx) (b : Blocks) (g : Segment) : HandedOn x b g (handOn x b g) := by
  have reported := reportRetired_off g (b.modTrack (withdrawSeg g))
  have released := releaseRef_off g.setting (reportRetired g (b.modTrack (withdrawSeg g)))
  have restart := released.restart.trans reported.restart
  unfold handOn
  rw [trigger_eq x b _ (by exact restart)]
  exact {
    track := released.track.trans reported.track
    cues := by
      simp only [Blocks.setRestart_cues, cancelRetired, cancelCues, Blocks.modCues, Blocks.setCues_cues, released.cues,
        reported.cues]
      simp [Blocks.modTrack]
    restart := rfl
    cache := ⟨_, reported.cache, reported.plan, rfl, rfl⟩
    report := ⟨b.modTrack (withdrawSeg g), rfl, rfl, released.report, released.causes⟩
    stations := released.stations.trans reported.stations }

/-- Where no SEAM segment and no ABSORBED seam leaves, no want is evaluated (R103). -/
theorem evaluateRetired_same (x : Ctx) (b : Blocks) (g : Segment) {c : Blocks} (track : c.track = withdrawSeg g b.track)
    (noSeam : ∀ s ∈ b.track.segs, s.seq = g.seq → s.kind ≠ .seam)
    (noAbsorbed : ∀ e ∈ b.track.seams, e.absorbedBy ≠ some g.seq) : evaluateRetired x b.track c = c := by
  have seams : c.track.seams = b.track.seams := by
    rw [track]
    exact List.filter_eq_self.mpr (by simpa using noAbsorbed)
  have segs : c.track.segs.filter (fun s => s.kind = .seam) = b.track.segs.filter (fun s => s.kind = .seam) := by
    rw [track, withdrawSeg, List.filter_filter]
    refine List.filter_congr fun s hs => ?_
    by_cases h : s.seq = g.seq
    · simp [noSeam s hs h]
    · simp [h]
  rw [evaluateRetired, if_pos seams]
  refine evaluateMoved_same x b.track c ?_
  rw [seamRanges, seamRanges, segs, seams]

/-! ### The record of a segment (R158, R196) -/

theorem segmentRecord_presence (g : Segment) : bit (wordAt (segmentRecord g).words 15) 9 = (presentRef g.setting).isSome := by
  rw [← testBit_boolNat (presentRef g.setting).isSome]
  exact bit_pack_field (lo := 9) (n := 1) (j := 0) (by simp [FieldApart]) (by decide)

theorem segmentRecord_number (g : Segment) :
    fld (wordAt (segmentRecord g).words 4) 0 9 = ((presentRef g.setting).map (·.number)).getD 0 % 512 :=
  fld_pack_field (lo := 0) (n := 9) (by simp [FieldApart])

theorem segmentRecord_version (g : Segment) :
    fld (wordAt (segmentRecord g).words 3) 16 16 = ((presentRef g.setting).map (·.version)).getD 0 % 65536 :=
  fld_pack_field (lo := 16) (n := 16) (by simp [FieldApart])

/-! ### The segments that retire at an advance (R42) -/

theorem retires_iff (x : Ctx) (g : Segment) :
    retires x g = true ↔ ∃ n, g.length = some n ∧ g.head + n + x.cfg.exitOffset ≤ x.motion.h := by
  unfold retires
  split
  next n h => simp [h]
  next h => simp [h]

theorem retire_segs (x : Ctx) (b : Blocks) (g : Segment) :
    (retire x b g).track.segs = b.track.segs.filter (fun s => s.seq ≠ g.seq) := by
  rw [(retire_off x b g).track, (handOn_handedOn x b g).track]
  rfl

theorem retire_queued (x : Ctx) {b : Blocks} (g : Segment) (room : b.report.queue.length < 8) :
    (retire x b g).report.queue = b.report.queue ++ [segmentRecord g] := by
  obtain ⟨p, same, -, report, -⟩ := (handOn_handedOn x b g).report
  rw [(retire_off x b g).report, report, reportRetired_queued g (by rw [same]; exact room), same]

theorem foldl_retire_segs (x : Ctx) (l : List Segment) (b : Blocks) :
    (l.foldl (retire x) b).track.segs = b.track.segs.filter fun s => l.all fun g => decide (s.seq ≠ g.seq) := by
  induction l generalizing b with
  | nil => simp
  | cons g l ih =>
    rw [List.foldl_cons, ih, retire_segs, List.filter_filter]
    refine List.filter_congr fun s _ => ?_
    rw [List.all_cons, Bool.and_comm]

theorem foldl_retire_queue (x : Ctx) (l : List Segment) (b : Blocks) (room : b.report.queue.length + l.length ≤ 8) :
    (l.foldl (retire x) b).report.queue = b.report.queue ++ l.map segmentRecord := by
  induction l generalizing b with
  | nil => simp
  | cons g l ih =>
    rw [List.length_cons] at room
    have queued := retire_queued x (b := b) g (by omega)
    have length := congrArg List.length queued
    rw [List.length_append, List.length_singleton] at length
    rw [List.foldl_cons, ih _ (by omega), queued, List.append_assoc]
    rfl

/-- With each number held once, the segments not retiring are those of another number than each that retires. -/
theorem retireAll_segs (x : Ctx) (b : Blocks) (distinct : b.track.segs.Pairwise fun g g' => g.seq ≠ g'.seq) :
    (retireAll x b).track.segs = b.track.segs.filter fun g => !retires x g := by
  have inj : ∀ g ∈ b.track.segs, ∀ s ∈ b.track.segs, g.seq = s.seq → g = s := fun g hg s hs =>
    List.inj_on_of_nodup_map (List.pairwise_map.mpr distinct) hg hs
  rw [retireAll, foldl_retire_segs]
  refine List.filter_congr fun s hs => ?_
  cases retired : retires x s with
  | true =>
    rw [Bool.not_true, List.all_eq_false]
    exact ⟨s, List.mem_filter.mpr ⟨hs, retired⟩, by simp⟩
  | false =>
    rw [Bool.not_false, List.all_eq_true]
    intro g hg
    obtain ⟨held, retires⟩ := List.mem_filter.mp hg
    have other : s.seq ≠ g.seq := fun same => by
      rw [inj s hs g held same, retires] at retired
      exact Bool.noConfusion retired
    simpa using other

/-- Settles O29: which segments retire at an advance, and what each hands on to the report unit, the setting cache, the
cue queue, the restart unit and the stations. -/
theorem retirementHandsTheSegmentOn : Obligations.RetirementHandsTheSegmentOn := by
  refine ⟨fun x entering b => ⟨rfl, retires_iff x, fun distinct => ⟨retireAll_segs x b distinct, fun room =>
    foldl_retire_queue x _ b room⟩⟩, fun x b g live => ?_⟩
  have handed := handOn_handedOn x b g
  have off := retire_off x b g
  obtain ⟨p, pCache, pPlan, cache, plan⟩ := handed.cache
  obtain ⟨q, qReport, qRestart, report, causes⟩ := handed.report
  refine ⟨retire_segs x b g, ?_, ?_, ?_, off.restart.trans handed.restart, fun uncounted => ?_, fun e counted waiting => ?_,
    fun noSeam noAbsorbed => ?_, ?_, retire_queued x g, fun full => ?_, ?_, fun r held present => ?_⟩
  · rw [off.track, handed.track]
    rfl
  · rw [off.cues, handed.cues]
  · rw [off.cues, handed.cues]
  · rw [off.cache, off.plan, cache, plan, releaseRef_uncounted uncounted]
    exact ⟨pCache, pPlan⟩
  · rw [off.cache, off.plan, cache, plan, releaseRef_plan _ (pCache ▸ waiting), ← pCache]
    refine ⟨pPlan, fun shared => ?_, fun last => ?_⟩
    · rw [releaseRef_shared counted shared]
      rfl
    · rw [releaseRef_last counted last (pCache ▸ waiting)]
      rfl
  · rw [retire_eq, evaluateRetired_same x b g handed.track noSeam noAbsorbed, handed.stations]
  · rw [off.report, report, reportRetired_retired, qReport]
  · rw [off.report, off.causes, report, causes, ← qReport]
    exact reportRetired_lost g ((live_of_part (congrArg Restart.part qRestart)).trans live) (qReport ▸ full)
  · rw [segmentRecord_presence]
    cases g.setting <;> simp [presentRef, Option.filter]
  · have shown : presentRef g.setting = some r := by simp [presentRef, held, Option.filter, present]
    rw [segmentRecord_number, segmentRecord_version, shown]
    exact ⟨rfl, rfl⟩

end Sys2Proof.Machine
end

section
/-! What a succession leaves of the track, and the rounds of the due matters of an H advance (R23, R25, R27, R28, R39). -/

namespace Sys2Proof.Machine

/-! ### The last segment of the track -/

/-- A segment comes last on the track, and no other has its number. -/
structure LastOf (t : Track) (old : List Segment) (g : Segment) : Prop where
  segs : t.segs = old ++ [g]
  apart : ∀ g' ∈ old, g'.seq ≠ g.seq

/-- A change of the segment of the last number changes the last segment. -/
theorem LastOf.modSeg {t : Track} {old : List Segment} {g : Segment} (h : LastOf t old g) (f : Segment → Segment) :
    modSeg g.seq f t = { t with segs := old ++ [f g] } := by
  have others : old.map (fun s => if s.seq = g.seq then f s else s) = old :=
    (List.map_congr_left fun s hs => if_neg (h.apart s hs)).trans (List.map_id' old)
  simp [Machine.modSeg, h.segs, others]

theorem LastOf.entering {t : Track} {old : List Segment} {g : Segment} (h : LastOf t old g) (openEnded : g.length = none) :
    t.entering = some g := by
  simp [Track.entering, h.segs, openEnded]

theorem lastOf_of_entering {x : Ctx} {b : Blocks} {old : List Segment} {g : Segment} (h : Entering x b old g) :
    LastOf b.track old g := by
  obtain ⟨_, segs, _, _, apart, _⟩ := h
  exact ⟨segs, apart⟩

theorem track_entering_of {x : Ctx} {b : Blocks} {old : List Segment} {g : Segment} (h : Entering x b old g) :
    b.track.entering = some g := by
  have ⟨_, _, openEnded, _⟩ := h
  exact (lastOf_of_entering h).entering openEnded

/-! ### A succession (R27, R28) -/

/-- A segment as it joins the track: with the next number, and LATE if its head lies below H (R21, R28). -/
def joined (h : Nat) (s : Segment) (t : Track) : Segment :=
  { s with
    seq := t.seqCounter + 1
    flags := { s.flags with late := s.flags.late || decide (s.head < h) } }

/-- The track in which the last segment has closed at the head of its successor, and that has joined. -/
def succession (h : Nat) (old : List Segment) (g s : Segment) (t : Track) : Track :=
  { t with
    segs := old ++ [closeSeg s.head g, joined h s t]
    seqCounter := t.seqCounter + 1
    boundary := .opened s.plannedEnd }

theorem joinTrack_eq {t : Track} {old : List Segment} {g : Segment} (last : LastOf t old g) (h : Nat) (s : Segment) :
    joinTrack h s (modSeg g.seq (closeSeg s.head) t) = succession h old g s t := by
  rw [last.modSeg]
  simp [joinTrack, succession, joined]

theorem modTrack_joins {b : Blocks} {old : List Segment} {g : Segment} (last : LastOf b.track old g) (h : Nat)
    (s : Segment) : (b.modTrack fun t => joinTrack h s (modSeg g.seq (closeSeg s.head) t)) =
      b.setTrack (succession h old g s b.track) := by
  rw [Blocks.modTrack, joinTrack_eq last]

/-- After a succession the web has worked on the closed segment and its successor. -/
theorem succeed_succession {b : Blocks} {old : List Segment} {g g' : Segment} (last : LastOf b.track old g)
    (same : g'.seq = g.seq) (x : Ctx) (advance : Bool) (s : Segment) :
    WebWork (b.setTrack (succession x.motion.h old g s b.track)) (succeed x advance g' s b) := by
  have work := succeed_web x advance g' s b
  rwa [same, modTrack_joins last] at work

/-- Work on the segments leaves the rest of the track. -/
theorem TrackWork.rest {t t' : Track} (h : TrackWork t t') : t' = { t with segs := t'.segs } := by
  obtain ⟨m, _, rfl⟩ := h
  rfl

theorem TrackWork.seqCounter {t t' : Track} (h : TrackWork t t') : t'.seqCounter = t.seqCounter := by rw [h.rest]
theorem TrackWork.boundary {t t' : Track} (h : TrackWork t t') : t'.boundary = t.boundary := by rw [h.rest]
theorem TrackWork.starvedHold {t t' : Track} (h : TrackWork t t') : t'.starvedHold = t.starvedHold := by rw [h.rest]

theorem TrackWork.shapes {t t' : Track} (h : TrackWork t t') : t'.segs.map segmentShape = t.segs.map segmentShape := by
  obtain ⟨m, carried, rfl⟩ := h
  rw [List.map_map]
  exact List.map_congr_left fun g _ => (carried g).fields.shape

theorem TrackWork.setStarvedHold {t t' : Track} (h : TrackWork t t') (v : Bool) :
    TrackWork { t with starvedHold := v } { t' with starvedHold := v } := by
  obtain ⟨m, carried, rfl⟩ := h
  exact ⟨m, carried, rfl⟩

theorem WebWork.setStarvedHold {a b : Blocks} (h : WebWork a b) (v : Bool) :
    WebWork (a.modTrack fun t => { t with starvedHold := v }) (b.modTrack fun t => { t with starvedHold := v }) :=
  ⟨h.track.setStarvedHold v, h.plan, h.cache, h.path, h.report, h.part⟩

/-- The last segment after the web's work, and those before it. -/
theorem TrackWork.lastOf {t t' : Track} {old : List Segment} {g : Segment} (h : TrackWork t t') (last : LastOf t old g) :
    ∃ old' g', LastOf t' old' g' ∧ Carried g g' ∧ old'.map segmentShape = old.map segmentShape := by
  obtain ⟨m, carried, rfl⟩ := h
  have seq (s : Segment) : (m s).seq = s.seq := (carried s).fields.seq
  refine ⟨old.map m, m g, ⟨by simp [last.segs], fun s hs => ?_⟩, carried g, ?_⟩
  · obtain ⟨r, hr, rfl⟩ := List.mem_map.mp hs
    rw [seq, seq]
    exact last.apart r hr
  · exact TrackWork.shapes (t := { t with segs := old }) ⟨m, carried, rfl⟩

section Succession
variable {h : Nat} {old : List Segment} {g s : Segment} {t t' : Track} (work : TrackWork (succession h old g s t) t')
include work

theorem succession_shapes (openEnded : s.length = none) : t'.segs.map segmentShape = old.map segmentShape ++
    [segmentShape (closeSeg s.head g), (t.seqCounter + 1, s.kind, s.origin, s.head, none)] := by
  rw [work.shapes]
  simp [succession, segmentShape, joined, openEnded]

/-- Where the next number is not in use, the successor comes last. -/
theorem succession_lastOf (last : LastOf t old g) (fresh : ∀ s ∈ t.segs, s.seq ≤ t.seqCounter) :
    ∃ old' n, LastOf t' old' n ∧ Carried (joined h s t) n := by
  have joins : LastOf (succession h old g s t) (old ++ [closeSeg s.head g]) (joined h s t) := by
    refine ⟨by simp [succession], fun s' hs' => ?_⟩
    have held : s'.seq ≤ t.seqCounter := by
      rcases List.mem_append.mp hs' with hs' | hs'
      · exact fresh s' (by simp [last.segs, hs'])
      · rw [List.mem_singleton.mp hs']
        exact fresh g (by simp [last.segs])
    exact Nat.ne_of_lt (Nat.lt_succ_of_le held)
  obtain ⟨old', n, last', carried, _⟩ := work.lastOf joins
  exact ⟨old', n, last', carried⟩

theorem succession_entering (openEnded : s.length = none) : ∃ n, t'.entering = some n ∧ Carried (joined h s t) n := by
  obtain ⟨m, carried, rfl⟩ := work
  have last : (succession h old g s t).segs.getLast? = some (joined h s t) := by simp [succession]
  refine ⟨m (joined h s t), ?_, carried _⟩
  rw [Track.entering, List.getLast?_map, last]
  exact if_pos (by rw [(carried _).fields.length, joined, openEnded]; rfl)

/-- A successor admitted below H is LATE (R21). -/
theorem succession_late (openEnded : s.length = none) : ∃ n, t'.entering = some n ∧ (s.head < h → n.flags.late = true) := by
  obtain ⟨n, entering, _, late⟩ := succession_entering work openEnded
  exact ⟨n, entering, fun below => late (by simp [joined, below])⟩

/-- The segment that closes keeps its SPLIT. -/
theorem succession_split (last : LastOf t old g) (fresh : ∀ s ∈ t.segs, s.seq ≤ t.seqCounter) :
    ∀ s' ∈ t'.segs, s'.seq = g.seq → s'.flags.split = g.flags.split := by
  obtain ⟨m, carried, rfl⟩ := work
  intro s' hs' same
  obtain ⟨r, hr, rfl⟩ := List.mem_map.mp hs'
  rw [(carried r).fields.seq] at same
  rw [(carried r).fields.split]
  have held : g.seq ≤ t.seqCounter := fresh g (by simp [last.segs])
  simp only [succession, List.mem_append, List.mem_cons, List.not_mem_nil, or_false] at hr
  rcases hr with hr | rfl | rfl
  · exact absurd same (last.apart r hr)
  · rfl
  · exact absurd same (Nat.ne_of_gt (Nat.lt_succ_of_le held))

end Succession

/-! ### A STARVED BLANK behind a segment (R39) -/

/-- A STARVED BLANK follows, and the starved-hold marker is set behind HOLD_AT_END. -/
theorem admitStarved_succession {b : Blocks} {old : List Segment} {g : Segment} (last : LastOf b.track old g) (x : Ctx)
    (advance : Bool) (p : Nat) : WebWork (b.setTrack (succession x.motion.h old g (Segment.blank p)
        { b.track with starvedHold := g.flags.holdAtEnd || b.track.starvedHold })) (admitStarved x advance g p b) := by
  have work := succeed_succession last rfl x advance (Segment.blank p)
  have marker : (succeed x advance g (Segment.blank p) b).track.starvedHold = b.track.starvedHold := work.track.starvedHold
  unfold admitStarved starvedCause
  rw [marker]
  split
  next hold =>
    rw [hold]
    exact raise_web (WebWork.setStarvedHold work true)
  next unset =>
    rw [Bool.not_eq_true] at unset
    rw [unset, ← (Bool.or_eq_false_iff.mp unset).2]
    exact raise_web work

theorem admitStarved_latched {b : Blocks} {old : List Segment} {g : Segment} (last : LastOf b.track old g) (x : Ctx)
    (advance : Bool) (p : Nat) (live : b.live = true) :
    ((admitStarved x advance g p b).causes.entry
      (if g.flags.holdAtEnd || b.track.starvedHold then .starvedHold else .starved)).isSome = true := by
  have work := succeed_succession last rfl x advance (Segment.blank p)
  have marker : (succeed x advance g (Segment.blank p) b).track.starvedHold = b.track.starvedHold := work.track.starvedHold
  have live' : (succeed x advance g (Segment.blank p) b).live = true := work.live.trans live
  unfold admitStarved starvedCause
  rw [marker]
  split
  · exact raise_latched _ _ (b := Blocks.modTrack _ (succeed x advance g (Segment.blank p) b)) live'
  · exact raise_latched _ _ live'

/-! ### The due matters of an advance (R23) -/

section Due
variable {x : Ctx} {b : Blocks}

/-- With no matter due, an advance takes none. -/
theorem takeDue_none {tried : Bool} (seam : dueSeam x.motion.h b.track = none)
    (boundary : dueBoundary x.motion.h tried b.track = none) (n : Nat) : takeDue x n tried b = b := by
  cases n with
  | zero => rfl
  | succ n => rw [takeDue, seam, boundary]

theorem dueBoundary_openEnded {h : Nat} {tried : Bool} {t : Track} (openEnded : t.boundary = .opened none) :
    dueBoundary h tried t = none := by
  simp [dueBoundary, openEnded]

theorem dueBoundary_beyond {h d : Nat} {tried : Bool} {t : Track} (due : t.boundary = .opened (some d)) (beyond : h < d) :
    dueBoundary h tried t = none := by
  unfold dueBoundary
  rw [due]
  cases t.entering with
  | none => rfl
  | some g =>
    have : ¬ closingAt g d ≤ h := by unfold closingAt; omega
    simp [this]

theorem dueBoundary_tried {h : Nat} {c : Bool} {t : Track} (deferred : t.boundary = .deferred c) :
    dueBoundary h true t = none := by
  unfold dueBoundary
  rw [deferred]
  cases t.entering <;> rfl

theorem dueBoundary_waiting {h p : Nat} {tried : Bool} {t : Track} (waiting : t.boundary = .waiting p) :
    dueBoundary h tried t = none := by
  unfold dueBoundary
  rw [waiting]
  cases t.entering <;> rfl

/-- A boundary that comes due lies beyond the ENTERING head and at or below H. -/
theorem dueBoundary_between {h p : Nat} {tried : Bool} {t : Track} {g : Segment} (entering : t.entering = some g)
    (due : dueBoundary h tried t = some p) : g.head < p ∧ p ≤ h ∧
      (∀ d, t.boundary = .opened (some d) → g.head < d → p = d) := by
  unfold dueBoundary at due
  rw [entering] at due
  cases boundary : t.boundary with
  | opened d =>
    cases d with
    | none => simp [boundary] at due
    | some d =>
      simp only [boundary, Option.ite_none_right_eq_some, Option.some.injEq] at due
      obtain ⟨reached, rfl⟩ := due
      refine ⟨head_lt_closingAt .., reached, fun d' same beyond => ?_⟩
      obtain rfl : d = d' := Option.some.inj (Boundary.opened.inj same)
      exact closingAt_of_lt beyond
  | deferred c =>
    simp only [boundary, pastRecorded, Option.ite_none_right_eq_some, Option.some.injEq, Bool.and_eq_true,
      decide_eq_true_eq] at due
    obtain ⟨⟨_, below, _⟩, rfl⟩ := due
    exact ⟨below, le_rfl, fun d same => by simp at same⟩
  | waiting q => simp [boundary] at due

/-- A boundary at H itself, of a segment whose head lies below H, comes due there. -/
theorem dueBoundary_atH {old : List Segment} {g : Segment} (h : Entering x b old g) (atH : BoundaryAtH x b.track) :
    dueBoundary x.motion.h false b.track = some x.motion.h := by
  have ⟨_, _, _, below, _⟩ := h
  unfold dueBoundary
  rw [track_entering_of h]
  rcases atH with opened | ⟨⟨c, deferred⟩, passed⟩
  · rw [opened]
    have closes : closingAt g x.motion.h = x.motion.h := closingAt_of_lt below
    simp [closes]
  · rw [deferred]
    simp [pastRecorded, below, passed]

theorem starvedCheck_same {old : List Segment} {g : Segment} (h : Entering x b old g)
    (other : b.plan.staged = none ∨ g.origin ≠ .starved ∨ b.track.boundary ≠ .opened none) : starvedCheck x b = b := by
  unfold starvedCheck
  split
  next g' o entering staged openEnded =>
    obtain rfl : g = g' := Option.some.inj ((track_entering_of h).symm.trans entering)
    rcases other with none | origin | due
    · exact absurd (none.symm.trans staged) (by simp)
    · exact if_neg fun starved => origin starved.1
    · exact absurd openEnded due
  next => rfl

/-- With no retirement due an advance takes the due matters at once. -/
theorem trackAdvance_entering {old : List Segment} {g : Segment} (h : Entering x b old g) :
    trackAdvance x b = takeDue x dueFuel false (starvedCheck x b) := by
  have ⟨_, _, _, _, _, noneRetires⟩ := h
  rw [trackAdvance, retireAll, noneRetires]
  rfl

/-- An advance that takes the boundary at H, and nothing after it. -/
theorem trackAdvance_boundary {old : List Segment} {g : Segment} (h : Entering x b old g) (atH : BoundaryAtH x b.track)
    (seam : dueSeam x.motion.h b.track = none)
    (seam' : dueSeam x.motion.h (takeBoundary x x.motion.h b).track = none)
    (boundary' : dueBoundary x.motion.h (takeBoundary x x.motion.h b).track.boundary.isDeferred
      (takeBoundary x x.motion.h b).track = none) :
    trackAdvance x b = takeBoundary x x.motion.h b := by
  have due : b.track.boundary ≠ .opened none := by
    rcases atH with opened | ⟨⟨c, deferred⟩, _⟩
    · simp [opened]
    · simp [deferred]
  rw [trackAdvance_entering h, starvedCheck_same h (.inr (.inr due)), dueFuel, takeDue, seam, dueBoundary_atH h atH]
  exact takeDue_none seam' boundary' 79

end Due

end Sys2Proof.Machine
end

section
/-! A boundary with nothing to admit: a STARVED BLANK follows (R25, R39, R103). -/

namespace Sys2Proof.Machine

/-! ### What a STARVED BLANK behind a BLANK leaves of the stations (R103) -/

/-- A station other than that of the screen named. -/
theorem evaluateWant_other (x : Ctx) (b : Blocks) {j k : Fin 16} (h : k ≠ j) :
    (evaluateWant x b j).stations.station[k] = b.stations.station[k] := by
  unfold evaluateWant
  dsimp only
  split
  · rfl
  · exact modStation_other _ h _

theorem stationBoundary_other (x : Ctx) (b : Blocks) {j k : Fin 16} (h : k ≠ j) :
    (stationBoundary x b j).stations.station[k] = b.stations.station[k] := by
  have refreshed : (refreshStation x b j).stations.station[k] = b.stations.station[k] := by
    unfold refreshStation
    dsimp only
    split
    · rfl
    · rw [show ∀ f c, (modStation j f c).stations.station[k] = c.stations.station[k] from
        fun f c => modStation_other c h f]
      split <;> rfl
  unfold stationBoundary
  dsimp only
  split
  · rfl
  · rw [evaluateWant_other x _ h, refreshed]

theorem refreshZone_stations (x : Ctx) (b : Blocks) (z : Fin 8) : (refreshZone x b z).stations = b.stations := by
  unfold refreshZone
  dsimp only
  split
  · split <;> rfl
  · rfl
  · rfl

theorem foldl_refreshZone_stations (x : Ctx) (l : List (Fin 8)) (b : Blocks) :
    (l.foldl (refreshZone x) b).stations = b.stations := by
  induction l generalizing b with
  | nil => rfl
  | cons z l ih => rw [List.foldl_cons, ih, refreshZone_stations]

theorem foldl_stationBoundary_other (x : Ctx) (l : List (Fin 16)) {k : Fin 16} (h : k ∉ l) (b : Blocks) :
    (l.foldl (stationBoundary x) b).stations.station[k] = b.stations.station[k] := by
  induction l generalizing b with
  | nil => rfl
  | cons j l ih =>
    obtain ⟨first, rest⟩ := not_or.mp (mt List.mem_cons.mpr h)
    rw [List.foldl_cons, ih rest, stationBoundary_other x b first]

/-- At a boundary at H no screen away from entry takes it. -/
theorem refreshBehind_away (x : Ctx) (b : Blocks) {k : Fin 16} (away : 0 < x.cfg.screenOffset[k]) :
    (refreshBehind x x.motion.h b).stations.station[k] = b.stations.station[k] := by
  have notBehind : k ∉ stationsBehind x x.motion.h := by
    intro behind
    have reached := (List.mem_filter.mp behind).2
    unfold reachedBy coordinate at reached
    split at reached
    next f coordinate =>
      obtain ⟨_, same⟩ := Option.ite_none_right_eq_some.mp coordinate
      obtain rfl := Option.some.inj same
      have := of_decide_eq_true reached
      omega
    next => exact Bool.noConfusion reached
  rw [refreshBehind, foldl_refreshZone_stations, foldl_stationBoundary_other x _ notBehind]

theorem handClosure_notPrint (x : Ctx) (advance : Bool) {q : Nat} {b : Blocks}
    (kind : ∀ g ∈ b.track.segs, g.seq = q → g.kind ≠ .print) : handClosure x advance q b = b := by
  unfold handClosure
  split
  · rfl
  next g found =>
    have seq : g.seq = q := by simpa using List.find?_some found
    split
    · rfl
    · exact if_neg (kind g (List.mem_of_find?_eq_some found) seq)

theorem handAdmission_notPrint (x : Ctx) (advance : Bool) {g : Segment} {b : Blocks} (entering : b.track.entering = some g)
    (kind : g.kind ≠ .print) : handAdmission x advance b = b := by
  unfold handAdmission
  rw [entering]
  exact if_neg kind

/-- Work on the segments leaves the ranges of the seams. -/
theorem TrackWork.seamRanges {t t' : Track} (h : TrackWork t t') (n : Nat) : seamRanges n t' = seamRanges n t := by
  obtain ⟨m, carried, rfl⟩ := h
  have kinds : (fun g => decide (g.kind = .seam)) ∘ m = fun g => decide (g.kind = .seam) := funext fun g => by
    rw [Function.comp_apply, (carried g).fields.kind]
  simp only [Machine.seamRanges, List.filter_map, kinds, List.map_map]
  refine congrArg (· ++ _) (List.map_congr_left fun g _ => ?_)
  have same := (carried g).fields
  simp only [Function.comp_apply, same.head, same.length, same.plannedEnd]

/-- Where neither of the two is a SEAM segment, a succession leaves the ranges of the seams. -/
theorem succession_seamRanges {t : Track} {old : List Segment} {g s : Segment} (last : LastOf t old g)
    (kind : g.kind ≠ .seam) (kind' : s.kind ≠ .seam) (h n : Nat) :
    seamRanges n (succession h old g s t) = seamRanges n t := by
  simp [seamRanges, succession, last.segs, closeSeg, joined, kind, kind']

/-- A BLANK that follows a BLANK at H leaves the station of a screen away from entry. -/
theorem succeed_blank_station {x : Ctx} {b : Blocks} {old : List Segment} {g s : Segment} (last : LastOf b.track old g)
    (kind : g.kind = .blank) (kind' : s.kind = .blank) (openEnded : s.length = none) (atH : s.head = x.motion.h)
    (advance : Bool) {k : Fin 16} (away : 0 < x.cfg.screenOffset[k]) :
    (succeed x advance g s b).stations.station[k] = b.stations.station[k] := by
  have closure := handClosure_notPrint x advance (q := g.seq) (b := b.setTrack (succession x.motion.h old g s b.track)) (by
    simp only [Blocks.setTrack_track, succession, List.mem_append, List.mem_cons, List.not_mem_nil, or_false]
    rintro s' (hs' | rfl | rfl) same
    · exact absurd same (last.apart s' hs')
    · simp [closeSeg, kind]
    · simp [joined, kind'])
  have admission := handAdmission_notPrint x advance (g := joined x.motion.h s b.track)
    (b := b.setTrack (succession x.motion.h old g s b.track)) (by simp [Track.entering, succession, joined, openEnded])
    (by simp [joined, kind'])
  have work := refreshBehind_web (WebWork.refl (b.setTrack (succession x.motion.h old g s b.track))) x (p := s.head)
  have moved := evaluateMoved_same x b.track (refreshBehind x s.head (b.setTrack (succession x.motion.h old g s b.track)))
    (by rw [work.track.seamRanges]; exact (succession_seamRanges last (by simp [kind]) (by simp [kind']) _ _).symm)
  obtain ⟨w, m, p, triggered⟩ := trigger_restart x (refreshBehind x s.head (b.setTrack (succession x.motion.h old g s b.track)))
  unfold succeed
  dsimp only
  rw [modTrack_joins last, closure, admission, moved, triggered, atH]
  exact refreshBehind_away x _ away

theorem admitStarved_station {x : Ctx} {b : Blocks} {old : List Segment} {g : Segment} (last : LastOf b.track old g)
    (kind : g.kind = .blank) (advance : Bool) {k : Fin 16} (away : 0 < x.cfg.screenOffset[k]) :
    (admitStarved x advance g x.motion.h b).stations.station[k] = b.stations.station[k] := by
  rw [← succeed_blank_station last kind (s := Segment.blank x.motion.h) rfl rfl rfl advance away]
  unfold admitStarved starvedCause
  split <;> simp [raise, Blocks.modTrack]

/-! ### The boundary (R25) -/

/-- With room, nothing owed and nothing staged, the boundary is starved. -/
theorem takeBoundary_starved {x : Ctx} {b : Blocks} {g : Segment} (entering : b.track.entering = some g)
    (room : entriesNeeded g ≤ b.track.free) (owed : g.contOwed = none) (staged : b.plan.staged = none) (p : Nat) :
    takeBoundary x p b = admitStarved x true g p b := by
  unfold takeBoundary
  rw [entering]
  simp only [if_neg (Nat.not_lt.mpr room), owed, staged]

theorem dueSeam_of_seams {h : Nat} {t t' : Track} (seams : t'.seams = t.seams) : dueSeam h t' = dueSeam h t := by
  rw [dueSeam, seams]
  rfl

/-- Settles O26: the STARVED BLANK at a boundary at H, and where a boundary comes due. -/
theorem boundaryWithoutOrderStarves : Obligations.BoundaryWithoutOrderStarves := by
  refine ⟨fun x b g old entering atH seam room owed staged => ?_, fun h p tried t g entering due =>
    dueBoundary_between entering due⟩
  have ⟨live, _⟩ := entering
  have last := lastOf_of_entering entering
  have taken := takeBoundary_starved (x := x) (track_entering_of entering) room owed staged x.motion.h
  have work := admitStarved_succession last x true x.motion.h
  have seams : (admitStarved x true g x.motion.h b).track.seams = b.track.seams := work.track.seams
  have boundary : (admitStarved x true g x.motion.h b).track.boundary = .opened none := work.track.boundary
  have advance := trackAdvance_boundary entering atH seam (by rw [taken, dueSeam_of_seams seams]; exact seam)
    (by rw [taken]; exact dueBoundary_openEnded boundary)
  dsimp only
  rw [advance, taken]
  exact ⟨succession_shapes work.track rfl, work.track.seqCounter, boundary, work.track.starvedHold, seams, work.plan,
    admitStarved_latched last x true _ live, fun kind k away => admitStarved_station last kind true away⟩

end Sys2Proof.Machine
end

section
/-! A boundary admits the staged order, or waits for it; a WAITING one is resolved (R24, R25, R29 to R31, R41). -/

namespace Sys2Proof.Machine

/-! ### The planned end (R24, R41) -/

/-- The first position at phase 0 at or beyond another: with repeat length `r` and remainder `(q + o) % r`. -/
theorem least_aligned {r o q e : Nat} (positive : 0 < q) (beyond : q ≤ e) (aligned : (e + o) % r = 0)
    (least : ∀ e', q ≤ e' → (e' + o) % r = 0 → e ≤ e') : q + (r - (q + o) % r) % r = e := by
  rcases Nat.eq_zero_or_pos r with rfl | hr
  · simp at aligned
    omega
  have rest := Nat.mod_lt (q + o) hr
  have split := Nat.div_add_mod (q + o) r
  generalize (q + o) % r = a at rest split ⊢
  generalize (q + o) / r = n at split
  rcases Nat.eq_zero_or_pos a with rfl | ha
  · have atOnce := least q le_rfl (by rw [← split]; simp)
    simp
    omega
  · have step : (r - a) % r = r - a := Nat.mod_eq_of_lt (by omega)
    have reached := least (q + (r - a)) (by omega) (by
      have : q + (r - a) + o = r * (n + 1) := by rw [Nat.mul_succ]; omega
      rw [this, Nat.mul_mod_right])
    obtain ⟨m, hm⟩ := Nat.dvd_of_mod_eq_zero aligned
    have above : n < m := Nat.lt_of_mul_lt_mul_left (a := r) (by omega)
    have := Nat.mul_le_mul_left r above
    rw [Nat.mul_succ] at this
    omega

/-- The planned end of an order, where it fits the positions. -/
theorem plannedEndOf_eq {s : Stations} {o : StagedOrder} {head e : Nat} (planned : PlannedEnd s o head e) :
    plannedEndOf s o head = (if o.kind = .printUntilSeam then none else some e) ∧
      (o.kind ≠ .printUntilSeam → head < e) := by
  by_cases untilSeam : o.kind = .printUntilSeam
  · simp [plannedEndOf, OrderKind.usesLength, untilSeam]
  obtain ⟨length, fits, place⟩ := planned untilSeam
  have uses : o.kind.usesLength = true := by
    cases kind : o.kind
    case printUntilSeam => exact absurd kind untilSeam
    all_goals rfl
  rw [plannedEndOf, if_pos uses, if_neg untilSeam, alignFor, alignTo]
  cases align : o.align with
  | false =>
    simp only [align] at place
    subst place
    exact ⟨by simp [position_of_lt fits], fun _ => by omega⟩
  | true =>
    cases mount : alignMount s with
    | none =>
      simp only [align, mount] at place
      subst place
      exact ⟨by simp [position_of_lt fits], fun _ => by omega⟩
    | some m =>
      simp only [align, mount] at place
      obtain ⟨beyond, aligned, least⟩ := place
      refine ⟨?_, fun _ => by omega⟩
      rw [position_of_lt (base := head) (by omega)]
      simp only [if_true, least_aligned (by omega) beyond aligned least, position_of_lt fits]

/-! ### What stations and zones take of a WAITING boundary (R25, R101) -/

/-- The stations and zones at or beyond a position take its boundary: of the track screen marks alone. -/
structure Refreshed (a b : Blocks) : Prop where
  keeps : ReturnKeeps a b
  causes : b.causes = a.causes

theorem Refreshed.refl (b : Blocks) : Refreshed b b := ⟨.refl b, rfl⟩

theorem Refreshed.trans {a b c : Blocks} (h : Refreshed a b) (k : Refreshed b c) : Refreshed a c :=
  ⟨h.keeps.trans k.keeps, k.causes.trans h.causes⟩

theorem foldl_refreshed {ι : Type} {f : Blocks → ι → Blocks} (hf : ∀ b i, Refreshed b (f b i)) (l : List ι) (b : Blocks) :
    Refreshed b (l.foldl f b) := by
  induction l generalizing b with
  | nil => exact .refl b
  | cons i l ih => exact (hf b i).trans (ih _)

theorem setMark_refreshed (q : Nat) (k : Fin 16) (code : MarkCode) (b : Blocks) :
    Refreshed b (b.modTrack (modSeg q (setMark k code))) := by
  refine ⟨⟨rfl, ?_, rfl, rfl, rfl, rfl⟩, rfl⟩
  simp only [Blocks.modTrack, Blocks.setTrack_track, modSeg, List.map_map]
  refine List.map_congr_left fun g _ => ?_
  dsimp only [Function.comp_apply]
  split <;> rfl

theorem modStation_refreshed (k : Fin 16) (f : Station → Station) (b : Blocks) : Refreshed b (modStation k f b) :=
  ⟨⟨rfl, rfl, rfl, rfl, rfl, rfl⟩, rfl⟩

theorem refreshStation_refreshed (x : Ctx) (b : Blocks) (k : Fin 16) : Refreshed b (refreshStation x b k) := by
  unfold refreshStation
  dsimp only
  split
  · exact .refl b
  · split
    · exact (setMark_refreshed _ k _ b).trans (modStation_refreshed ..)
    · exact modStation_refreshed ..
    · exact modStation_refreshed ..

theorem stationBoundary_refreshed (x : Ctx) (b : Blocks) (k : Fin 16) : Refreshed b (stationBoundary x b k) := by
  unfold stationBoundary
  dsimp only
  split
  · exact .refl b
  · refine (refreshStation_refreshed x b k).trans ?_
    rw [evaluateWant_eq]
    exact ⟨⟨rfl, rfl, rfl, rfl, rfl, rfl⟩, rfl⟩

theorem refreshZone_refreshed (x : Ctx) (b : Blocks) (z : Fin 8) : Refreshed b (refreshZone x b z) := by
  have zone (f : Zone → Zone) : Refreshed b (modZone z f b) := ⟨⟨rfl, rfl, rfl, rfl, rfl, rfl⟩, rfl⟩
  unfold refreshZone
  dsimp only
  split
  · split <;> exact zone _
  · exact zone _
  · exact zone _

theorem refreshBehind_refreshed (x : Ctx) (p : Nat) (b : Blocks) : Refreshed b (refreshBehind x p b) :=
  (foldl_refreshed (stationBoundary_refreshed x) _ b).trans (foldl_refreshed (refreshZone_refreshed x) _ _)

/-! ### The boundary with an order staged (R25, R29, R30) -/

/-- An order admitted: its segment follows, the starved-hold marker ends, and the plan reader releases it. -/
theorem admitStaged_succession {b : Blocks} {old : List Segment} {g : Segment} (last : LastOf b.track old g) (x : Ctx)
    (advance : Bool) (o : StagedOrder) (p : Nat) : WebWork ((b.modPlan releaseStaged).setTrack
        (succession x.motion.h old g (orderSegment b.stations o p) { b.track with starvedHold := false }))
      (admitStaged x advance g o p b) :=
  succeed_succession (b := (b.modTrack fun t => { t with starvedHold := false }).modPlan releaseStaged)
    ⟨last.segs, last.apart⟩ rfl x advance _

/-- The kind of the segment of an order (R19). -/
theorem orderSegment_kind (s : Stations) (o : StagedOrder) (p : Nat) :
    (orderSegment s o p).kind = if o.kind = .blankLength then .blank else .print := by
  unfold orderSegment
  cases o.kind <;> rfl

/-- The track and the plan reader after an order is admitted at a position with a planned end. -/
structure Admitted (b : Blocks) (old : List Segment) (g : Segment) (o : StagedOrder) (p e h : Nat) (b' : Blocks) :
    Prop where
  shapes : b'.track.segs.map segmentShape = old.map segmentShape ++ [segmentShape (closeSeg p g),
    (b.track.seqCounter + 1, if o.kind = .blankLength then .blank else .print, .order, p, none)]
  seqCounter : b'.track.seqCounter = b.track.seqCounter + 1
  boundary : b'.track.boundary = .opened (if o.kind = .printUntilSeam then none else some e)
  late : ∃ s, b'.track.entering = some s ∧ (p < h → s.flags.late = true)
  starvedHold : b'.track.starvedHold = false
  seams : b'.track.seams = b.track.seams
  plan : b'.plan = { b.plan with staged := none, take := .idle }

theorem admitStaged_admitted {b : Blocks} {old : List Segment} {g : Segment} (last : LastOf b.track old g) (x : Ctx)
    (advance : Bool) {o : StagedOrder} {p e : Nat} (planned : PlannedEnd b.stations o p e) :
    Admitted b old g o p e x.motion.h (admitStaged x advance g o p b) := by
  have work := admitStaged_succession last x advance o p
  obtain ⟨ends, _⟩ := plannedEndOf_eq planned
  exact {
    shapes := by
      rw [← orderSegment_kind b.stations o p]
      exact succession_shapes work.track rfl
    seqCounter := work.track.seqCounter
    boundary := by
      rw [← ends]
      exact work.track.boundary
    late := succession_late work.track rfl
    starvedHold := work.track.starvedHold
    seams := work.track.seams
    plan := work.plan }

theorem deferTo_track {b : Blocks} {old : List Segment} {g : Segment} (last : LastOf b.track old g) (forCache : Bool) :
    (deferTo forCache g.seq b).track = { b.track with
      boundary := .deferred forCache
      segs := old ++ [{ g with flags := { g.flags with extended := true } }] } := by
  simp only [deferTo, Blocks.modTrack, Blocks.setTrack_track, last.modSeg]
  rfl

section Taken
variable {x : Ctx} {b : Blocks} {g : Segment} (entering : b.track.entering = some g) (p : Nat)
include entering

theorem takeBoundary_full (full : b.track.free < entriesNeeded g) : takeBoundary x p b = deferTrack g.seq b := by
  unfold takeBoundary
  rw [entering]
  exact if_pos full

variable (room : entriesNeeded g ≤ b.track.free) (owed : g.contOwed = none) {o : StagedOrder}
  (staged : b.plan.staged = some o)
include room owed staged

theorem takeBoundary_ready (ready : o.isReady = true) : takeBoundary x p b = admitStaged x true g o p b := by
  unfold takeBoundary
  rw [entering]
  simp only [if_neg (Nat.not_lt.mpr room), owed, staged]
  cases state : o.state
  case none | ready => rfl
  all_goals simp [StagedOrder.isReady, state] at ready

theorem takeBoundary_fetching (state : o.state = .fetching) :
    takeBoundary x p b = refreshBehind x p (b.modTrack fun t => { t with boundary := .waiting p }) := by
  unfold takeBoundary
  rw [entering]
  simp only [if_neg (Nat.not_lt.mpr room), owed, staged, state]

theorem takeBoundary_waitingEntry (state : o.state = .waitingEntry) : takeBoundary x p b = deferTo true g.seq b := by
  unfold takeBoundary
  rw [entering]
  simp only [if_neg (Nat.not_lt.mpr room), owed, staged, state]

end Taken

/-! ### A WAITING boundary (R31) -/

section Waiting
variable {x : Ctx} {b : Blocks} {g : Segment} {p : Nat} (entering : b.track.entering = some g)
  (waiting : b.track.boundary = .waiting p) (beyond : g.head < p)
include entering waiting beyond

theorem resolveReady_waiting {o : StagedOrder} (staged : b.plan.staged = some o) (ready : o.isReady = true) :
    resolveReady x b = admitStaged x false g o p b := by
  unfold resolveReady
  rw [entering, waiting, staged]
  simp only [ready, if_true, closingAt_of_lt beyond]

theorem resolveRejected_waiting : resolveRejected x b = admitStarved x false g p b := by
  unfold resolveRejected
  rw [entering, waiting]
  simp only [closingAt_of_lt beyond]

end Waiting

/-! ### The boundary at an advance -/

section Advance
variable {x : Ctx} {b : Blocks} {g : Segment} {old : List Segment} (entering : Entering x b old g)
  (atH : BoundaryAtH x b.track) (seam : dueSeam x.motion.h b.track = none)
include entering atH seam

/-- A boundary that becomes DEFERRED or WAITING ends the advance, the seams as they were. -/
theorem trackAdvance_boundary_stays {c : Blocks} (taken : takeBoundary x x.motion.h b = c)
    (seams : c.track.seams = b.track.seams)
    (stays : (∃ q, c.track.boundary = .waiting q) ∨ ∃ d, c.track.boundary = .deferred d) : trackAdvance x b = c := by
  subst taken
  refine trackAdvance_boundary entering atH seam (by rw [dueSeam_of_seams seams]; exact seam) ?_
  rcases stays with ⟨q, waiting⟩ | ⟨d, deferred⟩
  · exact dueBoundary_waiting waiting
  · rw [show (takeBoundary x x.motion.h b).track.boundary.isDeferred = true by rw [deferred]; rfl]
    exact dueBoundary_tried deferred

theorem trackAdvance_ready {o : StagedOrder} {e : Nat} (room : entriesNeeded g ≤ b.track.free) (owed : g.contOwed = none)
    (staged : b.plan.staged = some o) (ready : o.isReady = true) (planned : PlannedEnd b.stations o x.motion.h e) :
    trackAdvance x b = admitStaged x true g o x.motion.h b := by
  have taken := takeBoundary_ready (x := x) (track_entering_of entering) x.motion.h room owed staged ready
  have admitted := admitStaged_admitted (lastOf_of_entering entering) x true planned
  obtain ⟨_, beyond⟩ := plannedEndOf_eq planned
  rw [trackAdvance_boundary entering atH seam, taken]
  · rw [taken, dueSeam_of_seams admitted.seams]
    exact seam
  · rw [taken]
    by_cases untilSeam : o.kind = .printUntilSeam
    · exact dueBoundary_openEnded (by rw [admitted.boundary, if_pos untilSeam])
    · exact dueBoundary_beyond (by rw [admitted.boundary, if_neg untilSeam]) (beyond untilSeam)

theorem trackAdvance_full (full : b.track.free < entriesNeeded g) : trackAdvance x b = deferTrack g.seq b ∧
    (deferTrack g.seq b).track = { b.track with
      boundary := .deferred false, segs := old ++ [{ g with flags := { g.flags with extended := true } }] } := by
  have track : (deferTrack g.seq b).track = (deferTo false g.seq b).track := by
    unfold deferTrack
    dsimp only
    split
    · rfl
    · exact raiseAt_track_other _ _ _ _ (by decide)
  rw [deferTo_track (lastOf_of_entering entering)] at track
  exact ⟨trackAdvance_boundary_stays entering atH seam (takeBoundary_full (track_entering_of entering) _ full)
    (by rw [track]) (.inr ⟨false, by rw [track]⟩), track⟩

end Advance

/-- TRACK_FULL is raised as the boundary comes into the state DEFERRED for the track (log 16). -/
theorem deferTrack_causes (q : Nat) {b : Blocks} (live : b.live = true) :
    (deferTrack q b).plan = b.plan ∧ (b.track.boundary = .deferred false → (deferTrack q b).causes = b.causes) ∧
      (b.track.boundary ≠ .deferred false → Raised .trackFull 0 .hold b.causes (deferTrack q b).causes) := by
  unfold deferTrack
  dsimp only
  split
  next deferred => exact ⟨rfl, fun _ => rfl, fun other => absurd deferred other⟩
  next other => exact ⟨raiseAt_plan .., fun deferred => absurd deferred other, fun _ => raiseAt_raised _ _ _ _ live⟩

/-- Settles O27: a boundary at H with an order staged or without room, and a WAITING boundary resolved. -/
theorem boundaryAdmitsTheStagedOrder : Obligations.BoundaryAdmitsTheStagedOrder := by
  refine ⟨fun x b g old entering atH seam => ⟨fun o e room owed staged ready planned => ?_,
    fun o room owed staged fetching => ?_, fun o room owed staged waiting => ?_, fun full => ?_⟩,
    fun x b g old p entering waiting beyond _ => ⟨fun o e staged ready planned => ?_, ?_⟩⟩
  · have admitted := admitStaged_admitted (lastOf_of_entering entering) x true planned
    rw [trackAdvance_ready entering atH seam room owed staged ready planned]
    exact ⟨admitted.shapes, admitted.seqCounter, admitted.starvedHold, admitted.boundary, admitted.plan⟩
  · have taken := takeBoundary_fetching (x := x) (track_entering_of entering) x.motion.h room owed staged fetching
    have refreshed := refreshBehind_refreshed x x.motion.h
      (b.modTrack fun t => { t with boundary := .waiting x.motion.h })
    have track := refreshed.keeps.track
    rw [trackAdvance_boundary_stays entering atH seam taken (by rw [track]; rfl) (.inl ⟨x.motion.h, by rw [track]; rfl⟩)]
    exact ⟨track, refreshed.keeps.segs, refreshed.keeps.plan, refreshed.causes⟩
  · have taken := takeBoundary_waitingEntry (x := x) (track_entering_of entering) x.motion.h room owed staged waiting
    have track := deferTo_track (lastOf_of_entering entering) true
    rw [trackAdvance_boundary_stays entering atH seam taken (by rw [track]) (.inr ⟨true, by rw [track]⟩)]
    exact ⟨track, rfl, rfl⟩
  · obtain ⟨advance, track⟩ := trackAdvance_full entering atH seam full
    have ⟨live, _⟩ := entering
    obtain ⟨plan, again, first⟩ := deferTrack_causes g.seq live
    rw [advance]
    exact ⟨track, plan, again, first⟩
  · have admitted := admitStaged_admitted (lastOf_of_entering entering) x false planned
    dsimp only
    rw [resolveReady_waiting (track_entering_of entering) waiting beyond staged ready]
    exact ⟨admitted.shapes, admitted.boundary, admitted.late, admitted.starvedHold, admitted.plan⟩
  · have ⟨live, _⟩ := entering
    have last := lastOf_of_entering entering
    have work := admitStarved_succession last x false p
    dsimp only
    rw [resolveRejected_waiting (track_entering_of entering) waiting beyond]
    exact ⟨succession_shapes work.track rfl, work.track.boundary, succession_late work.track rfl, work.track.starvedHold,
      admitStarved_latched last x false p live⟩

end Sys2Proof.Machine
end

section
/-! What a succession by a SEAM segment leaves of the cue queue (R83, R86 to R88). -/

namespace Sys2Proof.Machine

/-! ### Work that leaves the cue queue -/

theorem ite_queue {p : Prop} [Decidable p] {a b c : Blocks} (hb : b.cues.queue = a.cues.queue)
    (hc : c.cues.queue = a.cues.queue) : (if p then b else c).cues.queue = a.cues.queue := by
  split
  · exact hb
  · exact hc

theorem giveVerdict_queue (source q rel : Nat) (v : Verdict) (b : Blocks) :
    (giveVerdict source q rel v b).cues.queue = b.cues.queue := by
  unfold giveVerdict
  cases v
  case undercured | overcured => exact ite_queue rfl (congrArg Cues.queue (raiseAt_cues ..))
  all_goals rfl

theorem placeProbe_queue (x : Ctx) (b : Blocks) (q rel : Nat) : (placeProbe x b q rel).cues.queue = b.cues.queue := by
  unfold placeProbe
  split
  · rfl
  · split
    · rfl
    · dsimp only
      split
      · rw [giveVerdict_queue]
        rfl
      · rfl

theorem createProbe_queue (x : Ctx) (q rel : Nat) (b : Blocks) : (createProbe x q rel b).cues.queue = b.cues.queue :=
  placeProbe_queue ..

theorem ovenClosed_queue (x : Ctx) (q n : Nat) (b : Blocks) : (ovenClosed x q n b).cues.queue = b.cues.queue := by
  have short (c : Blocks) (p : Prop) [Decidable p] (f : Track → Track) (o : Oven → Oven) :
      (if p then (c.modTrack f).modOven o else c).cues.queue = c.cues.queue := ite_queue rfl rfl
  unfold ovenClosed
  dsimp only
  rw [short]
  split
  · split
    · exact ite_queue (createProbe_queue ..) rfl
    · exact createProbe_queue ..
  · rfl

theorem fireScreenCue_queue (x : Ctx) (b : Blocks) (k : Fin 16) (action : CueAction) (q : Nat) :
    (fireScreenCue x b k action q).cues.queue = b.cues.queue := by
  unfold fireScreenCue takeScreenCue
  dsimp only
  split
  · split
    · rfl
    · rw [evaluateWant_eq]
      rfl
  · rfl

theorem actCue_queue (x : Ctx) (b : Blocks) (p : PendingCue) : (actCue x b p).cues.queue = b.cues.queue := by
  unfold actCue
  cases p.cue.action
  case zoneSet =>
    dsimp only
    split <;> rfl
  case mark => rfl
  case lift | lower | pasteHold | pasteResume =>
    dsimp only
    split
    · exact fireScreenCue_queue ..
    · rfl

theorem fireCue_queue (x : Ctx) (b : Blocks) (p : PendingCue) : (fireCue x b p).cues.queue = b.cues.queue := by
  unfold fireCue
  split
  · rfl
  · rw [actCue_queue]
    unfold flagLate
    split <;> rfl

theorem foldl_fireCue_queue (x : Ctx) (l : List PendingCue) (b : Blocks) :
    (l.foldl (fireCue x) b).cues.queue = b.cues.queue := by
  induction l generalizing b with
  | nil => rfl
  | cons p l ih => rw [List.foldl_cons, ih, fireCue_queue]

/-- The cues due at the head of the queue leave it. -/
theorem fireDue_queue (x : Ctx) (b : Blocks) :
    (fireDue x b).cues.queue = b.cues.queue.dropWhile fun p => p.due ≤ x.motion.h :=
  foldl_fireCue_queue ..

/-! ### TAIL cues that join the queue (R83, R86) -/

/-- Only TAIL cues join the queue, and none due beyond a position leaves it. -/
structure TailJoins (h : Nat) (a b : Blocks) : Prop where
  joins : ∀ q ∈ b.cues.queue, q ∈ a.cues.queue ∨ q.cue.tail = true
  stays : ∀ q ∈ a.cues.queue, h < q.due → q ∈ b.cues.queue

theorem TailJoins.of_queue {h : Nat} {a b : Blocks} (same : b.cues.queue = a.cues.queue) : TailJoins h a b :=
  ⟨fun _ hq => .inl (same ▸ hq), fun _ hq _ => same ▸ hq⟩

theorem TailJoins.trans {h : Nat} {a b c : Blocks} (p : TailJoins h a b) (r : TailJoins h b c) : TailJoins h a c where
  joins q hq := (r.joins q hq).elim (p.joins q) .inr
  stays q hq beyond := r.stays q (p.stays q hq beyond) beyond

theorem mem_insertDue {p q : PendingCue} {l : List PendingCue} : q ∈ insertDue p l ↔ q = p ∨ q ∈ l := by
  conv_rhs => rw [← List.takeWhile_append_dropWhile (p := fun e => decide (e.due ≤ p.due)) (l := l)]
  simp only [insertDue, List.mem_append, List.mem_singleton]
  tauto

theorem fireDue_tailJoins (x : Ctx) (b : Blocks) : TailJoins x.motion.h b (fireDue x b) := by
  refine ⟨fun q hq => .inl ?_, fun q hq beyond => ?_⟩
  · rw [fireDue_queue] at hq
    exact (List.dropWhile_sublist _).mem hq
  · rw [← List.takeWhile_append_dropWhile (p := fun e => decide (e.due ≤ x.motion.h)) (l := b.cues.queue)] at hq
    rw [fireDue_queue]
    refine (List.mem_append.mp hq).resolve_left fun fires => ?_
    have due := List.mem_takeWhile_imp (p := fun e : PendingCue => decide (e.due ≤ x.motion.h)) fires
    simp only [decide_eq_true_eq] at due
    omega

theorem insertCue_tailJoins (x : Ctx) (lateBelow edge q : Nat) (b : Blocks) {c : Cue} (tail : c.tail = true) :
    TailJoins x.motion.h b (insertCue x lateBelow edge q b c) := by
  unfold insertCue
  dsimp only
  split
  · refine TailJoins.trans ⟨fun p hp => ?_, fun p hp _ => ?_⟩ (fireDue_tailJoins x _)
    · rcases mem_insertDue.mp hp with rfl | held
      · exact .inr tail
      · exact .inl held
    · exact mem_insertDue.mpr (.inr hp)
  · exact .of_queue (by simp [raise])

theorem insertBatch_tailJoins (x : Ctx) (advance : Bool) (edge q : Nat) {cs : List Cue} (tails : ∀ c ∈ cs, c.tail = true)
    (b : Blocks) : TailJoins x.motion.h b (insertBatch x advance edge q cs b) := by
  unfold insertBatch
  induction cs generalizing b with
  | nil => exact .of_queue rfl
  | cons c cs ih =>
    obtain ⟨first, rest⟩ := List.forall_mem_cons.mp tails
    exact (insertCue_tailJoins x _ edge q b first).trans (ih rest _)

theorem tail_of_mem_tailCues {t : Option Setting} {c : Cue} (h : c ∈ tailCues t) : c.tail = true := by
  cases t with
  | none => simp [tailCues] at h
  | some t =>
    simp only [tailCues, Option.map_some, Option.getD_some, List.mem_filter] at h
    exact h.2

theorem handClosure_tailJoins (x : Ctx) (advance : Bool) (q : Nat) (b : Blocks) :
    TailJoins x.motion.h b (handClosure x advance q b) := by
  unfold handClosure
  split
  · exact .of_queue rfl
  · split
    · exact .of_queue rfl
    · split
      · exact (insertBatch_tailJoins x advance _ _ (fun c hc => tail_of_mem_tailCues hc) b).trans
          (.of_queue (ovenClosed_queue ..))
      · exact .of_queue rfl

/-- A SEAM segment follows: the queue takes the TAIL batch of the segment that closes, and no HEAD batch. -/
theorem succeed_seam_tailJoins {b : Blocks} {old : List Segment} {g s : Segment} (last : LastOf b.track old g) (x : Ctx)
    (advance : Bool) (kind : s.kind = .seam) (openEnded : s.length = none) :
    TailJoins x.motion.h b (succeed x advance g s b) := by
  have closure := handClosure_tailJoins x advance g.seq (b.setTrack (succession x.motion.h old g s b.track))
  have work := handClosure_web (WebWork.refl (b.setTrack (succession x.motion.h old g s b.track))) x (advance := advance)
    (q := g.seq)
  obtain ⟨n, entering, carried⟩ := succession_entering work.track openEnded
  have admission := handAdmission_notPrint x advance entering (by simp [carried.fields.kind, joined, kind])
  have refreshed := refreshBehind_refreshed x s.head
    (handClosure x advance g.seq (b.setTrack (succession x.motion.h old g s b.track)))
  unfold succeed
  dsimp only
  rw [modTrack_joins last, admission]
  refine TailJoins.trans (b := b.setTrack (succession x.motion.h old g s b.track)) (.of_queue rfl) (closure.trans (.of_queue ?_))
  obtain ⟨w, m, p, triggered⟩ := trigger_restart x (evaluateMoved x b.track (refreshBehind x s.head
    (handClosure x advance g.seq (b.setTrack (succession x.motion.h old g s b.track)))))
  rw [triggered, Blocks.setRestart_cues, evaluateMoved_cues, refreshed.keeps.cues]

end Sys2Proof.Machine
end

section
/-! A seam that comes due at H: it truncates, covers, follows or is absorbed by the ENTERING segment (R34 to R38), and the
continuation owed by a SEAM segment is admitted at its end (R25, R28). -/

namespace Sys2Proof.Machine

/-! ### The due seam (R23) -/

theorem dueSeam_beyond {h : Nat} {t : Track} (beyond : ∀ e ∈ t.seams, e.absorbedBy.isSome = true ∨ h < e.due) :
    dueSeam h t = none := by
  refine List.find?_eq_none.mpr fun e he => ?_
  rcases beyond e he with absorbed | later
  · simp [Option.isSome_iff_ne_none.mp absorbed]
  · simp; omega

/-- The due seam leaves the list, and the rest stays. -/
theorem dropSeam_eq {t : Track} {e : PendingSeam} {rest : List PendingSeam} (seams : t.seams = e :: rest)
    (beyond : ∀ e' ∈ rest, e.due < e'.due) : dropSeam e t = { t with seams := rest } := by
  have others : rest.filter (fun s => decide (s ≠ e)) = rest := by
    refine List.filter_eq_self.mpr fun e' he' => decide_eq_true fun same => ?_
    have := beyond e' he'
    rw [same] at this
    omega
  rw [dropSeam, seams, List.filter_cons_of_neg (by simp), others]

/-- A boundary comes due at or beyond a position where each due end lies there. -/
theorem le_of_dueBoundary {h p : Nat} {tried : Bool} {t : Track} (beyond : ∀ d, t.boundary = .opened (some d) → h ≤ d)
    (due : dueBoundary h tried t = some p) : h ≤ p := by
  unfold dueBoundary at due
  split at due
  next g d _ boundary =>
    have ends := beyond d boundary
    obtain ⟨_, same⟩ := Option.ite_none_right_eq_some.mp due
    have := Option.some.inj same
    unfold closingAt at this
    omega
  next =>
    obtain ⟨_, same⟩ := Option.ite_none_right_eq_some.mp due
    exact (Option.some.inj same).le
  next => simp at due

section Advance
variable {x : Ctx} {b : Blocks} {g : Segment} {old : List Segment} {e : PendingSeam} {rest : List PendingSeam}
  (entering : Entering x b old g) (atH : SeamAtH x b.track e rest)
include entering atH

/-- An advance that takes the seam at H, and nothing after it. -/
theorem trackAdvance_seam (checked : starvedCheck x b = b)
    (beyond : ∀ d, b.track.boundary = .opened (some d) → x.motion.h ≤ d) {c : Blocks} (taken : takeSeam x e b = c)
    (seams : ∀ e ∈ c.track.seams, e.absorbedBy.isSome = true ∨ x.motion.h < e.due)
    (boundary : c.track.boundary = .opened none ∨ ∃ d, c.track.boundary = .opened (some d) ∧ x.motion.h < d) :
    trackAdvance x b = c := by
  obtain ⟨pending, absorbed, due, _⟩ := atH
  have seam : dueSeam x.motion.h b.track = some e := by simp [dueSeam, pending, absorbed, due]
  have stops : takeDue x 79 false c = c := by
    refine takeDue_none (dueSeam_beyond seams) ?_ 79
    rcases boundary with openEnded | ⟨d, ends, later⟩
    · exact dueBoundary_openEnded openEnded
    · exact dueBoundary_beyond ends later
  rw [trackAdvance_entering entering, checked, dueFuel, takeDue, seam]
  cases next : dueBoundary x.motion.h false b.track with
  | none => simp only [taken, stops]
  | some p => simp only [due, le_of_dueBoundary beyond next, if_true, taken, stops]

end Advance

/-- Once a WAITING boundary is resolved, a seam meets the ENTERING segment. -/
theorem takeSeam_resolved {x : Ctx} {b c : Blocks} {g : Segment} (resolved : resolveRejected x b = c)
    (entering : c.track.entering = some g) (e : PendingSeam) :
    takeSeam x e b = evaluateWants x (meetSeam x g e c) := by
  rw [takeSeam_eq, resolved, entering]

/-- Over a boundary that does not wait a seam meets the ENTERING segment. -/
theorem takeSeam_met {x : Ctx} {b : Blocks} {g : Segment} (entering : b.track.entering = some g)
    (notWaiting : ∀ p, b.track.boundary ≠ .waiting p) (e : PendingSeam) :
    takeSeam x e b = evaluateWants x (meetSeam x g e b) := by
  have resolved : resolveRejected x b = b := by
    unfold resolveRejected
    split
    next p _ waiting _ => exact absurd waiting (notWaiting p)
    next => rfl
  exact takeSeam_resolved resolved entering e

/-! ### The continuation owed (R35 to R37) -/

/-- A segment whose continuation owed has been shortened: kept, or dropped with its HOLD_AT_END passed on. -/
def shortenedSeg (c : Anchor) (o : ContOwed) (n : Int) (g : Segment) : Segment :=
  { g with
    contOwed := Shortened c o n
    flags := { g.flags with holdAtEnd := g.flags.holdAtEnd || (o.holdAtEnd && (Shortened c o n).isNone) } }

theorem shortenOwed_track {b : Blocks} {old : List Segment} {g : Segment} (last : LastOf b.track old g) (c : Anchor)
    (o : ContOwed) (n : Int) :
    (shortenOwed c.minOrder g.seq o n b).track = { b.track with segs := old ++ [shortenedSeg c o n g] } := by
  unfold shortenOwed
  dsimp only
  by_cases short : (o.remaining : Int) - n < c.minOrder
  · have released := (releaseRef_off o.setting b).track
    rw [if_pos short, dropOwed, Blocks.modTrack, Blocks.setTrack_track, released, last.modSeg]
    simp [shortenedSeg, Shortened, short]
  · rw [if_neg short, Blocks.modTrack, Blocks.setTrack_track, last.modSeg]
    simp [shortenedSeg, Shortened, short]

/-! ### A seam inside a SEAM segment (R35) -/

/-- A SEAM segment whose due end has moved. -/
def extendSeg (tail : Nat) (g : Segment) : Segment := { g with plannedEnd := some tail }

/-- A SEAM segment that covers a seam: its due end moves, and a continuation owed is shortened. -/
def coveredSeg (c : Anchor) (d tail : Nat) (g : Segment) : Segment :=
  match g.contOwed with
  | some o => shortenedSeg c o ((tail : Int) - d) (extendSeg tail g)
  | none => extendSeg tail g

theorem coverSeam_track {x : Ctx} {b : Blocks} {old : List Segment} {g : Segment} {e : PendingSeam}
    {rest : List PendingSeam} (last : LastOf b.track old g) (seams : b.track.seams = e :: rest)
    (beyond : ∀ e' ∈ rest, e.due < e'.due) {d tail : Nat} (ends : g.plannedEnd = some d)
    (covered : coveredEnd x.cfg g e.due = tail) :
    (coverSeam x g e b).track = { b.track with
      seams := rest, boundary := .opened (some tail), segs := old ++ [coveredSeg x.cfg d tail g] } := by
  have moved : { dropSeam e (modSeg g.seq (extendSeg tail) b.track) with boundary := Boundary.opened (some tail) } =
      { b.track with seams := rest, boundary := .opened (some tail), segs := old ++ [extendSeg tail g] } := by
    rw [last.modSeg, dropSeam_eq (rest := rest) (by exact seams) beyond]
  unfold coverSeam
  simp only [covered, ends, Option.getD_some]
  split
  next c owed =>
    have last' : LastOf (b.modTrack fun t => { dropSeam e (modSeg g.seq (extendSeg tail) t) with
        boundary := Boundary.opened (some tail) }).track old (extendSeg tail g) :=
      ⟨by rw [Blocks.modTrack, Blocks.setTrack_track, moved], last.apart⟩
    refine (shortenOwed_track last' x.cfg c ((tail : Int) - d)).trans ?_
    rw [Blocks.modTrack, Blocks.setTrack_track, moved]
    simp only [coveredSeg, owed]
  next owed =>
    refine Eq.trans (by exact moved) ?_
    simp only [coveredSeg, owed]

/-! ### A SEAM segment follows (R34, R37) -/

/-- A SEAM segment has followed a closed segment: the shapes of the track, its SPLIT, the next due end, and the seams left. -/
structure SeamFollows (old : List Segment) (closed : Nat × SegKind × SegOrigin × Nat × Option Nat) (split : Bool)
    (q d tail : Nat) (rest : List PendingSeam) (t : Track) : Prop where
  shapes : t.segs.map segmentShape = old.map segmentShape ++ [closed, (q, .seam, .seam, d, none)]
  boundary : t.boundary = .opened (some tail)
  seams : t.seams = rest
  split : ∀ s ∈ t.segs, s.seq = closed.1 → s.flags.split = split

theorem succession_seamFollows {h tail : Nat} {old : List Segment} {g s : Segment} {t t' : Track}
    (work : TrackWork (succession h old g s t) t') (last : LastOf t old g) (fresh : ∀ s ∈ t.segs, s.seq ≤ t.seqCounter)
    (kind : s.kind = .seam) (origin : s.origin = .seam) (openEnded : s.length = none) (ends : s.plannedEnd = some tail) :
    SeamFollows old (segmentShape (closeSeg s.head g)) g.flags.split (t.seqCounter + 1) s.head tail t.seams t' where
  shapes := by rw [succession_shapes work openEnded, kind, origin]
  boundary := by rw [work.boundary, succession, ends]
  seams := work.seams
  split s' hs' same := succession_split work last fresh s' hs' same

/-- The continuation of the SEAM segment is shortened. -/
theorem SeamFollows.shortened {old old' : List Segment} {closed : Nat × SegKind × SegOrigin × Nat × Option Nat}
    {split : Bool} {q d tail : Nat} {rest : List PendingSeam} {t : Track} {s : Segment}
    (h : SeamFollows old closed split q d tail rest t) (last : LastOf t old' s) (c : Anchor) (o : ContOwed) (n : Int) :
    SeamFollows old closed split q d tail rest { t with segs := old' ++ [shortenedSeg c o n s] } where
  shapes := by
    rw [← h.shapes, last.segs]
    simp [segmentShape, shortenedSeg]
  boundary := h.boundary
  seams := h.seams
  split s' hs' same := by
    rcases List.mem_append.mp hs' with hs' | hs'
    · exact h.split s' (by simp [last.segs, hs']) same
    · rw [List.mem_singleton.mp hs'] at same ⊢
      exact h.split s (by simp [last.segs]) same

/-! ### A seam truncates (R34, R36, R88) -/

/-- The planned end of a segment lies beyond a position. -/
def endsBeyond (d : Nat) (g : Segment) : Bool :=
  match g.plannedEnd with
  | some p => decide (d < p)
  | none => false

/-- A truncated segment, with SPLIT or as it was. -/
def cutSeg (split : Bool) (g : Segment) : Segment :=
  { g with flags := { g.flags with split := g.flags.split || split }, truncated := true }

/-- The blocks in which a seam cuts a segment: the seam has left the list, and the HEAD cues past the cut the queue. -/
def cutBlocks (g : Segment) (e : PendingSeam) (b : Blocks) : Blocks :=
  let b' := b.modTrack fun t => dropSeam e (modSeg g.seq (cutSeg (endsBeyond e.due g)) t)
  if g.kind = .print then cancelTruncated g.seq (e.due - g.head) b' else b'

theorem truncateAt_eq (x : Ctx) (g : Segment) (e : PendingSeam) (b : Blocks) : truncateAt x g e b =
    succeed x true g (truncatingSeam x.cfg g e.due) (claimOwed (owedBy x.cfg g e.due) (cutBlocks g e b)) := rfl

/-- The claim of a reference changes the setting cache alone. -/
theorem claimOwed_eq (o : Option ContOwed) (b : Blocks) : claimOwed o b = b.setCache (claimOwed o b).cache := by
  unfold claimOwed
  split
  · unfold claimRef
    split <;> rfl
  · rfl

theorem claimOwed_counted {o : Option ContOwed} {r : SettingRef} {i : Fin 8} (owed : o.bind (·.setting) = some r)
    (counted : r.counted = some i) (b : Blocks) : (claimOwed o b).cache = { b.cache with
      entries := b.cache.entries.set i { b.cache.entries[i] with count := b.cache.entries[i].count + 1 } } := by
  simp only [claimOwed, owed, claimRef, counted]
  rfl

theorem claimOwed_uncounted {o : Option ContOwed} (uncounted : (o.bind (·.setting)).bind SettingRef.counted = none)
    (b : Blocks) : claimOwed o b = b := by
  unfold claimOwed
  split
  next r owed =>
    rw [owed, Option.bind_some] at uncounted
    simp only [claimRef, uncounted]
  next => rfl

/-- The SEAM segment of a truncation carries the continuation owed, or else HOLD_AT_END (R36). -/
theorem truncatingSeam_eq (c : Anchor) (g : Segment) (d : Nat) : truncatingSeam c g d =
    { seamSegment c.seamLength d with
      contOwed := owedBy c g d
      flags := { holdAtEnd := g.flags.holdAtEnd && (owedBy c g d).isNone } } := by
  unfold truncatingSeam
  cases owedBy c g d <;> simp [seamSegment, Segment.blank]

section Truncation
variable {x : Ctx} {b : Blocks} {old : List Segment} {g : Segment} {e : PendingSeam} {rest : List PendingSeam}
  (last : LastOf b.track old g) (seams : b.track.seams = e :: rest) (beyond : ∀ e' ∈ rest, e.due < e'.due)

omit last seams beyond in
/-- What a cut leaves of the blocks but for the track and the cues. -/
theorem cutBlocks_others : (cutBlocks g e b).cache = b.cache ∧ (cutBlocks g e b).plan = b.plan := by
  unfold cutBlocks
  dsimp only
  split <;> exact ⟨rfl, rfl⟩

include last seams beyond

theorem cutBlocks_track : (cutBlocks g e b).track =
    { b.track with segs := old ++ [cutSeg (endsBeyond e.due g) g], seams := rest } := by
  have cut : dropSeam e (modSeg g.seq (cutSeg (endsBeyond e.due g)) b.track) =
      { b.track with segs := old ++ [cutSeg (endsBeyond e.due g) g], seams := rest } := by
    rw [last.modSeg, dropSeam_eq (rest := rest) (by exact seams) beyond]
  unfold cutBlocks
  dsimp only
  split <;> exact cut

theorem claimed_track (o : Option ContOwed) : (claimOwed o (cutBlocks g e b)).track =
    { b.track with segs := old ++ [cutSeg (endsBeyond e.due g) g], seams := rest } := by
  rw [claimOwed_eq, Blocks.setCache_track, cutBlocks_track last seams beyond]

theorem claimed_lastOf (o : Option ContOwed) :
    LastOf (claimOwed o (cutBlocks g e b)).track old (cutSeg (endsBeyond e.due g) g) :=
  ⟨by rw [claimed_track last seams beyond], last.apart⟩

theorem truncateAt_track : TrackWork (succession x.motion.h old (cutSeg (endsBeyond e.due g) g)
      (truncatingSeam x.cfg g e.due)
      { b.track with segs := old ++ [cutSeg (endsBeyond e.due g) g], seams := rest }) (truncateAt x g e b).track := by
  have work := succeed_succession (claimed_lastOf last seams beyond (owedBy x.cfg g e.due)) (g' := g) rfl x true
    (truncatingSeam x.cfg g e.due)
  rw [claimed_track last seams beyond] at work
  exact work.track

theorem truncateAt_cache : (truncateAt x g e b).cache = (claimOwed (owedBy x.cfg g e.due) (cutBlocks g e b)).cache :=
  (succeed_succession (claimed_lastOf last seams beyond (owedBy x.cfg g e.due)) (g' := g) rfl x true
    (truncatingSeam x.cfg g e.due)).cache

theorem truncateAt_plan : (truncateAt x g e b).plan = b.plan := by
  have work := succeed_succession (claimed_lastOf last seams beyond (owedBy x.cfg g e.due)) (g' := g) rfl x true
    (truncatingSeam x.cfg g e.due)
  obtain ⟨_, plan⟩ := cutBlocks_others (g := g) (e := e) (b := b)
  rw [truncateAt_eq, work.plan, Blocks.setTrack_plan, claimOwed_eq, Blocks.setCache_plan, plan]

end Truncation

end Sys2Proof.Machine
end

section
/-! What a due seam does at an advance, case by case of the ENTERING segment and its boundary (R31, R34 to R38, R88). -/

namespace Sys2Proof.Machine

/-- The seam due at H. -/
theorem seamAtH_eq {x : Ctx} {t : Track} {e : PendingSeam} {rest : List PendingSeam} (atH : SeamAtH x t e rest) :
    e = ⟨x.motion.h, none⟩ := by
  obtain ⟨_, absorbed, due, _⟩ := atH
  obtain ⟨d, a⟩ := e
  obtain rfl : d = x.motion.h := due
  obtain rfl : a = none := absorbed
  rfl

/-- A segment put in the place of the last one has a number not above the counter. -/
theorem fresh_of_last {t : Track} {old : List Segment} {g g' : Segment} (fresh : ∀ s ∈ t.segs, s.seq ≤ t.seqCounter)
    (last : LastOf t old g) (same : g'.seq = g.seq) : ∀ s ∈ old ++ [g'], s.seq ≤ t.seqCounter := by
  intro s hs
  rcases List.mem_append.mp hs with hs | hs
  · exact fresh s (by simp [last.segs, hs])
  · rw [List.mem_singleton.mp hs, same]
    exact fresh g (by simp [last.segs])

/-- A succession takes one entry (R22). -/
theorem succession_free {h : Nat} {old : List Segment} {g s : Segment} {t t' : Track}
    (work : TrackWork (succession h old g s t) t') (last : LastOf t old g) (openEnded : s.length = none)
    (room : 2 ≤ t.free) (numbers : t.seqCounter + 2 < 4294967296) : 0 < t'.free := by
  have counter : t'.seqCounter = t.seqCounter + 1 := work.seqCounter
  have longer : t'.segs.length = t.segs.length + 1 := by
    have length := congrArg List.length (succession_shapes work openEnded)
    simpa [last.segs] using length
  unfold Track.free at room ⊢
  split at room <;> split <;> omega

/-! ### What a truncation leaves (R34, R36, R88) -/

/-- A HEAD cue of a segment at or past the length that a seam leaves it (R88). -/
def CutOff (g : Segment) (d : Nat) (q : PendingCue) : Prop :=
  q.seq = g.seq ∧ q.cue.tail = false ∧ ((d - g.head : Nat) : Int) ≤ q.cue.offset

section Truncation
variable {x : Ctx} {b : Blocks} {old : List Segment} {g : Segment} {e : PendingSeam} {rest : List PendingSeam}
  (last : LastOf b.track old g) (seams : b.track.seams = e :: rest) (beyond : ∀ e' ∈ rest, e.due < e'.due)
include last seams beyond

theorem truncateAt_shapes : (truncateAt x g e b).track.segs.map segmentShape = old.map segmentShape ++
    [segmentShape (closeSeg e.due g), (b.track.seqCounter + 1, .seam, .seam, e.due, none)] := by
  have work := truncateAt_track (x := x) last seams beyond
  rw [truncatingSeam_eq] at work
  exact succession_shapes work rfl

theorem truncateAt_boundary :
    (truncateAt x g e b).track.boundary = .opened (some (position e.due (e.due + x.cfg.seamLength))) := by
  have work := truncateAt_track (x := x) last seams beyond
  rw [truncatingSeam_eq] at work
  exact work.boundary

theorem truncateAt_seams : (truncateAt x g e b).track.seams = rest :=
  (truncateAt_track (x := x) last seams beyond).seams

theorem truncateAt_split (fresh : ∀ s ∈ b.track.segs, s.seq ≤ b.track.seqCounter) :
    ∀ s ∈ (truncateAt x g e b).track.segs, s.seq = g.seq → s.flags.split = (g.flags.split || endsBeyond e.due g) := by
  have fresh' := fresh_of_last fresh last (g' := cutSeg (endsBeyond e.due g) g) rfl
  exact succession_split (truncateAt_track (x := x) last seams beyond) (g := cutSeg (endsBeyond e.due g) g)
    ⟨rfl, last.apart⟩ fresh'

theorem truncateAt_entering : ∃ s, (truncateAt x g e b).track.entering = some s ∧ s.contOwed = owedBy x.cfg g e.due ∧
    s.flags.holdAtEnd = (g.flags.holdAtEnd && (owedBy x.cfg g e.due).isNone) := by
  have work := truncateAt_track (x := x) last seams beyond
  rw [truncatingSeam_eq] at work
  obtain ⟨s, entering, carried⟩ := succession_entering work rfl
  exact ⟨s, entering, carried.fields.contOwed, carried.fields.holdAtEnd⟩

/-- Of the cues the truncation cuts off none stays queued, and no other that is due beyond H leaves. -/
theorem truncateAt_cues (kind : g.kind = .print) :
    (∀ q ∈ (truncateAt x g e b).cues.queue, ¬ CutOff g e.due q) ∧
    ∀ q ∈ b.cues.queue, x.motion.h < q.due → ¬ CutOff g e.due q → q ∈ (truncateAt x g e b).cues.queue := by
  have follows : TailJoins x.motion.h (claimOwed (owedBy x.cfg g e.due) (cutBlocks g e b)) (truncateAt x g e b) :=
    succeed_seam_tailJoins (claimed_lastOf last seams beyond (owedBy x.cfg g e.due)) x true
      (s := truncatingSeam x.cfg g e.due) (by rw [truncatingSeam_eq]; rfl) (by rw [truncatingSeam_eq]; rfl)
  have queue : (claimOwed (owedBy x.cfg g e.due) (cutBlocks g e b)).cues.queue = b.cues.queue.filter fun q =>
      !decide (q.seq = g.seq ∧ ¬ q.cue.tail ∧ ((e.due - g.head : Nat) : Int) ≤ q.cue.offset) := by
    rw [claimOwed_eq, Blocks.setCache_cues, cutBlocks, if_pos kind]
    rfl
  refine ⟨fun q hq ⟨seq, head, cut⟩ => ?_, fun q hq later long => follows.stays q ?_ later⟩
  · rcases follows.joins q hq with held | tail
    · rw [queue] at held
      have := (List.mem_filter.mp held).2
      simp [seq, head, cut] at this
    · rw [head] at tail
      exact Bool.noConfusion tail
  · rw [queue]
    refine List.mem_filter.mpr ⟨hq, ?_⟩
    rw [Bool.not_eq_true', decide_eq_false_iff_not]
    simpa [CutOff] using long

end Truncation

/-! ### A seam at an advance -/

section Inside
variable {bd : Boundary} {h : Nat}
  (inside : bd = .opened none ∨ (∃ d, bd = .opened (some d) ∧ h < d) ∨ ∃ c, bd = .deferred c)
include inside

/-- Over a boundary that lies beyond or is DEFERRED a seam falls inside a segment that is no SEAM (R34, R38). -/
theorem atBoundary_inside {g : Segment} (kind : g.kind ≠ .seam) : atBoundary bd g h = false := by
  rcases inside with rfl | ⟨d, rfl, later⟩ | ⟨c, rfl⟩
  · rfl
  · exact decide_eq_false (Nat.ne_of_lt later)
  · exact decide_eq_false kind

theorem notWaiting_inside (p : Nat) : bd ≠ .waiting p := by
  rcases inside with rfl | ⟨d, rfl, _⟩ | ⟨c, rfl⟩
  all_goals exact Boundary.noConfusion

theorem ahead_inside (d : Nat) (ends : bd = .opened (some d)) : h ≤ d := by
  rcases inside with rfl | ⟨d', rfl, beyond⟩ | ⟨c, rfl⟩
  · simp at ends
  · obtain rfl : d' = d := Option.some.inj (Boundary.opened.inj ends)
    exact beyond.le
  · simp at ends

end Inside

section Advance
variable {x : Ctx} {b : Blocks} {g : Segment} {old : List Segment} {rest : List PendingSeam}
  (entering : Entering x b old g) (atH : SeamAtH x b.track ⟨x.motion.h, none⟩ rest)
include entering atH

/-- The advance ends with a seam whose tail is the next due end. -/
theorem trackAdvance_tail (checked : starvedCheck x b = b)
    (ahead : ∀ d, b.track.boundary = .opened (some d) → x.motion.h ≤ d) {c : Blocks}
    (taken : takeSeam x ⟨x.motion.h, none⟩ b = evaluateWants x c) (seams : c.track.seams = rest)
    (boundary : c.track.boundary = .opened (some (x.motion.h + x.cfg.seamLength))) :
    trackAdvance x b = evaluateWants x c := by
  have ⟨_, _, _, later, positive, _⟩ := atH
  refine trackAdvance_seam entering atH checked ahead taken ?_ (.inr ⟨_, by rw [evaluateWants_track]; exact boundary, by omega⟩)
  rw [evaluateWants_track, seams]
  exact fun e he => .inr (later e he)

theorem trackAdvance_truncates (kind : g.kind ≠ .seam) (room : 0 < b.track.free)
    (unstarved : b.plan.staged = none ∨ g.origin ≠ .starved ∨ b.track.boundary ≠ .opened none)
    (inside : b.track.boundary = .opened none ∨ (∃ d, b.track.boundary = .opened (some d) ∧ x.motion.h < d) ∨
      ∃ c, b.track.boundary = .deferred c) :
    trackAdvance x b = evaluateWants x (truncateAt x g ⟨x.motion.h, none⟩ b) := by
  have ⟨seams, _, _, later, _, fits⟩ := atH
  have ⟨_, _, _, below, _⟩ := entering
  have last := lastOf_of_entering entering
  have met : meetSeam x g ⟨x.motion.h, none⟩ b = truncateAt x g ⟨x.motion.h, none⟩ b := by
    simp [meetSeam, atBoundary_inside inside kind, kind, seamFits, room, below]
  exact trackAdvance_tail entering atH (starvedCheck_same entering unstarved) (ahead_inside inside)
    (by rw [takeSeam_met (track_entering_of entering) (notWaiting_inside inside), met]) (truncateAt_seams last seams later)
    (by rw [truncateAt_boundary last seams later, position_of_lt fits])

/-- Over a WAITING boundary a STARVED BLANK follows first, and the seam truncates it. -/
theorem trackAdvance_waiting (fresh : ∀ s ∈ b.track.segs, s.seq ≤ b.track.seqCounter) {p : Nat}
    (waiting : b.track.boundary = .waiting p) (beyond : g.head < p) (below : p < x.motion.h) (room : 2 ≤ b.track.free)
    (numbers : b.track.seqCounter + 2 < 4294967296) :
    let c := admitStarved x false g p b
    ∃ old' n, LastOf c.track old' n ∧ c.track.seams = ⟨x.motion.h, none⟩ :: rest ∧
      old'.map segmentShape = old.map segmentShape ++ [segmentShape (closeSeg p g)] ∧
      segmentShape n = (b.track.seqCounter + 1, .blank, .starved, p, none) ∧ c.track.seqCounter = b.track.seqCounter + 1 ∧
      c.plan = b.plan ∧ trackAdvance x b = evaluateWants x (truncateAt x n ⟨x.motion.h, none⟩ c) := by
  intro c
  have ⟨seams, _, _, later, _, fits⟩ := atH
  have last := lastOf_of_entering entering
  have work := admitStarved_succession last x false p
  obtain ⟨old', n, last', carried⟩ := succession_lastOf work.track ⟨last.segs, last.apart⟩ fresh
  have same := carried.fields
  have shapes := succession_shapes work.track (s := Segment.blank p) rfl
  have counter : c.track.seqCounter = b.track.seqCounter + 1 := work.track.seqCounter
  have seams' : c.track.seams = ⟨x.motion.h, none⟩ :: rest := work.track.seams.trans seams
  have entering' := last'.entering same.length
  have free : 0 < c.track.free := succession_free work.track ⟨last.segs, last.apart⟩ rfl room numbers
  have below' : n.head < x.motion.h := same.head ▸ below
  have met : meetSeam x n ⟨x.motion.h, none⟩ c = truncateAt x n ⟨x.motion.h, none⟩ c := by
    have notSeam : n.kind ≠ .seam := by rw [same.kind]; exact SegKind.noConfusion
    have bd : c.track.boundary = .opened none := work.track.boundary
    simp [meetSeam, atBoundary_inside (.inl bd) notSeam, notSeam, seamFits, free, below']
  have taken : takeSeam x ⟨x.motion.h, none⟩ b = evaluateWants x (truncateAt x n ⟨x.motion.h, none⟩ c) := by
    rw [takeSeam_resolved (resolveRejected_waiting (track_entering_of entering) waiting beyond) entering', met]
  refine ⟨old', n, last', seams', ?_, same.shape, counter, work.plan, ?_⟩
  · have both := shapes
    change c.track.segs.map segmentShape = _ at both
    rw [last'.segs, List.map_append, List.append_cons] at both
    exact List.append_inj_left' both rfl
  · exact trackAdvance_tail entering atH (starvedCheck_same entering (.inr (.inr (by simp [waiting]))))
      (by simp [waiting]) taken (truncateAt_seams last' seams' later)
      (by rw [truncateAt_boundary last' seams' later, position_of_lt fits])

end Advance

end Sys2Proof.Machine
end

section
/-! A seam inside a SEAM segment, at the due end, and with no entry free; and the continuation at the end of a SEAM segment
(R25, R28, R35, R37, R38). -/

namespace Sys2Proof.Machine

/-! ### A SEAM segment at the due end (R37) -/

/-- A SEAM segment whose continuation owed has passed on. -/
def passedOn (g : Segment) : Segment := { g with contOwed := none }

/-- The SEAM segment that follows a segment that is none, with its HOLD_AT_END. -/
def holdingSeam (c : Anchor) (g : Segment) (d : Nat) : Segment :=
  { seamSegment c.seamLength d with flags := { holdAtEnd := g.flags.holdAtEnd } }

section AtBoundary
variable {x : Ctx} {b : Blocks} {old : List Segment} {g : Segment} {e : PendingSeam} {rest : List PendingSeam}
  (last : LastOf b.track old g) (seams : b.track.seams = e :: rest) (beyond : ∀ e' ∈ rest, e.due < e'.due)
include last seams beyond

theorem seamAtBoundary_plain (kind : g.kind ≠ .seam) :
    TrackWork (succession x.motion.h old g (holdingSeam x.cfg g e.due) { b.track with seams := rest })
      (seamAtBoundary x g e b).track := by
  have dropped : (b.modTrack (dropSeam e)).track = { b.track with seams := rest } := dropSeam_eq seams beyond
  have last' : LastOf (b.modTrack (dropSeam e)).track old g := ⟨by rw [dropped]; exact last.segs, last.apart⟩
  have work := succeed_succession last' rfl x true (holdingSeam x.cfg g e.due)
  rw [dropped] at work
  unfold seamAtBoundary
  rw [if_neg kind]
  exact work.track

/-- Behind a SEAM segment the continuation passes to the next, shortened by a seam length. -/
theorem seamAtBoundary_seam (kind : g.kind = .seam) : ∃ b', TrackWork
      (succession x.motion.h old (passedOn g) (seamSegment x.cfg.seamLength e.due)
        { b.track with segs := old ++ [passedOn g], seams := rest }) b'.track ∧
      (g.contOwed = none → seamAtBoundary x g e b = b') ∧
      ∀ c n, g.contOwed = some c → b'.track.entering = some n →
        seamAtBoundary x g e b = shortenOwed x.cfg.minOrder n.seq c x.cfg.seamLength b' := by
  have dropped : dropSeam e b.track = { b.track with seams := rest } := dropSeam_eq seams beyond
  have last' : LastOf (dropSeam e b.track) old g := ⟨by rw [dropped]; exact last.segs, last.apart⟩
  have passed : ((b.modTrack (dropSeam e)).modTrack (modSeg g.seq passedOn)).track =
      { b.track with segs := old ++ [passedOn g], seams := rest } := by
    rw [Blocks.modTrack, Blocks.setTrack_track, Blocks.modTrack, Blocks.setTrack_track, last'.modSeg, dropped]
  have work := succeed_succession (b := (b.modTrack (dropSeam e)).modTrack (modSeg g.seq passedOn)) (old := old)
    (g := passedOn g) (g' := g) ⟨by rw [passed], last.apart⟩ rfl x true (seamSegment x.cfg.seamLength e.due)
  rw [passed] at work
  refine ⟨_, work.track, fun owed => ?_, fun c n owed entering => ?_⟩
  · unfold seamAtBoundary
    rw [if_pos kind]
    simp only [owed]
    rfl
  · unfold seamAtBoundary
    rw [if_pos kind]
    dsimp only
    split
    next c' n' owed' entering' =>
      obtain rfl : c = c' := Option.some.inj (owed.symm.trans owed')
      obtain rfl : n = n' := Option.some.inj (entering.symm.trans entering')
      rfl
    next neither => exact (neither c n owed entering).elim

/-- A SEAM segment follows at the due end, and the segment before it gets no SPLIT. -/
theorem seamAtBoundary_follows (fresh : ∀ s ∈ b.track.segs, s.seq ≤ b.track.seqCounter) :
    SeamFollows old (segmentShape (closeSeg e.due g)) g.flags.split (b.track.seqCounter + 1) e.due
      (position e.due (e.due + x.cfg.seamLength)) rest (seamAtBoundary x g e b).track := by
  by_cases kind : g.kind = .seam
  · obtain ⟨b', work, whole, short⟩ := seamAtBoundary_seam (x := x) last seams beyond kind
    have fresh' := fresh_of_last fresh last (g' := passedOn g) rfl
    have follows := succession_seamFollows work ⟨rfl, last.apart⟩ fresh' rfl rfl rfl rfl
    cases owed : g.contOwed with
    | none =>
      rw [whole owed]
      exact follows
    | some c =>
      obtain ⟨old', n, last', carried⟩ := succession_lastOf work ⟨rfl, last.apart⟩ fresh'
      rw [short c n owed (last'.entering carried.fields.length), shortenOwed_track last']
      exact follows.shortened last' x.cfg c x.cfg.seamLength
  · exact succession_seamFollows (seamAtBoundary_plain last seams beyond kind) ⟨last.segs, last.apart⟩ fresh rfl rfl rfl rfl

/-- HOLD_AT_END of a segment that is no SEAM passes to the SEAM segment behind it. -/
theorem seamAtBoundary_hold (kind : g.kind ≠ .seam) : ∃ s, (seamAtBoundary x g e b).track.entering = some s ∧
    s.contOwed = none ∧ s.flags.holdAtEnd = g.flags.holdAtEnd := by
  obtain ⟨s, entering, carried⟩ := succession_entering (seamAtBoundary_plain (x := x) last seams beyond kind) rfl
  exact ⟨s, entering, carried.fields.contOwed, carried.fields.holdAtEnd⟩

/-- The continuation owed passes on shortened, or is dropped with its HOLD_AT_END. -/
theorem seamAtBoundary_owed (fresh : ∀ s ∈ b.track.segs, s.seq ≤ b.track.seqCounter) (kind : g.kind = .seam) {c : ContOwed}
    (owed : g.contOwed = some c) : ∃ s, (seamAtBoundary x g e b).track.entering = some s ∧
      s.contOwed = Shortened x.cfg c x.cfg.seamLength ∧
      s.flags.holdAtEnd = (c.holdAtEnd && (Shortened x.cfg c x.cfg.seamLength).isNone) := by
  obtain ⟨b', work, _, short⟩ := seamAtBoundary_seam (x := x) last seams beyond kind
  have fresh' := fresh_of_last fresh last (g' := passedOn g) rfl
  obtain ⟨old', n, last', carried⟩ := succession_lastOf work ⟨rfl, last.apart⟩ fresh'
  have openEnded := carried.fields.length
  refine ⟨shortenedSeg x.cfg c x.cfg.seamLength n, ?_, rfl, ?_⟩
  · rw [short c n owed (last'.entering openEnded), shortenOwed_track last']
    simp [Track.entering, shortenedSeg, openEnded, joined, seamSegment, Segment.blank]
  · simp [shortenedSeg, carried.fields.holdAtEnd, joined, seamSegment, Segment.blank]

end AtBoundary

/-! ### A seam with no entry free (R38) -/

/-- A segment that absorbs a seam. -/
def absorbingSeg (g : Segment) : Segment := { g with flags := { g.flags with seamUnlifted := true, extended := true } }

theorem absorbSeam_track {x : Ctx} {b : Blocks} {old : List Segment} {g : Segment} {e : PendingSeam}
    {rest : List PendingSeam} (last : LastOf b.track old g) (seams : b.track.seams = e :: rest)
    (beyond : ∀ e' ∈ rest, e.due < e'.due) : (absorbSeam x g e b).track = { b.track with
      segs := old ++ [absorbingSeg g]
      seams := { e with absorbedBy := some g.seq } :: rest
      boundary := absorbedEnd (position e.due (e.due + x.cfg.seamLength)) b.track.boundary
      absorbedSeams := inc16 b.track.absorbedSeams } := by
  have others : rest.map (fun s => if s = e then { s with absorbedBy := some g.seq } else s) = rest := by
    refine (List.map_congr_left fun s hs => if_neg fun same => ?_).trans (List.map_id' rest)
    have := beyond s hs
    rw [same] at this
    omega
  unfold absorbSeam
  dsimp only
  rw [raise, raiseAt_track_other _ _ _ _ (by decide), Blocks.modTrack, Blocks.setTrack_track, last.modSeg, seams,
    List.map_cons, others, if_pos rfl]
  rfl

theorem absorbSeam_raised {x : Ctx} {b : Blocks} (live : b.live = true) (g : Segment) (e : PendingSeam) :
    Raised .seamUnlifted 0 .trip b.causes (absorbSeam x g e b).causes :=
  raiseAt_raised .seamUnlifted 0 .trip _ (by exact live)

/-! ### The advance -/

section Advance
variable {x : Ctx} {b : Blocks} {g : Segment} {old : List Segment}

section Seam
variable {rest : List PendingSeam} (entering : Entering x b old g) (atH : SeamAtH x b.track ⟨x.motion.h, none⟩ rest)
include entering atH

/-- Inside a SEAM segment the seam moves its due end. -/
theorem trackAdvance_covers {d : Nat} (kind : g.kind = .seam) (opened : b.track.boundary = .opened (some d))
    (ends : g.plannedEnd = some d) (inside : x.motion.h < d) : (trackAdvance x b).track = { b.track with
      seams := rest
      boundary := .opened (some (x.motion.h + x.cfg.seamLength))
      segs := old ++ [coveredSeg x.cfg d (x.motion.h + x.cfg.seamLength) g] } := by
  have ⟨seams, _, _, later, _, fits⟩ := atH
  have ⟨_, _, _, below, _⟩ := entering
  have covered : coveredEnd x.cfg g x.motion.h = x.motion.h + x.cfg.seamLength := by
    rw [coveredEnd, position_of_lt fits, if_pos below]
  have track := coverSeam_track (lastOf_of_entering entering) seams later ends covered
  have met : meetSeam x g ⟨x.motion.h, none⟩ b = coverSeam x g ⟨x.motion.h, none⟩ b := by
    have notEnd : x.motion.h ≠ d := Nat.ne_of_lt inside
    simp [meetSeam, atBoundary, opened, notEnd, kind]
  rw [trackAdvance_tail entering atH (starvedCheck_same entering (.inr (.inr (by simp [opened])))) (fun d' ends' => ?_)
    (by rw [takeSeam_met (track_entering_of entering) (by simp [opened]), met]) (by rw [track]) (by rw [track]),
    evaluateWants_track, track]
  rw [opened] at ends'
  obtain rfl : d = d' := Option.some.inj (Boundary.opened.inj ends')
  omega

/-- At the due end a SEAM segment follows. -/
theorem trackAdvance_atEnd (opened : b.track.boundary = .opened (some x.motion.h)) (room : 0 < b.track.free)
    (fresh : ∀ s ∈ b.track.segs, s.seq ≤ b.track.seqCounter) :
    trackAdvance x b = evaluateWants x (seamAtBoundary x g ⟨x.motion.h, none⟩ b) ∧
    SeamFollows old (segmentShape (closeSeg x.motion.h g)) g.flags.split (b.track.seqCounter + 1) x.motion.h
      (x.motion.h + x.cfg.seamLength) rest (seamAtBoundary x g ⟨x.motion.h, none⟩ b).track := by
  have ⟨seams, _, _, later, _, fits⟩ := atH
  have ⟨_, _, _, below, _⟩ := entering
  have follows := seamAtBoundary_follows (x := x) (lastOf_of_entering entering) seams later fresh
  rw [position_of_lt fits] at follows
  have met : meetSeam x g ⟨x.motion.h, none⟩ b = seamAtBoundary x g ⟨x.motion.h, none⟩ b := by
    simp [meetSeam, atBoundary, opened, seamFits, room, below]
  refine ⟨trackAdvance_tail entering atH (starvedCheck_same entering (.inr (.inr (by simp [opened])))) (fun d ends => ?_)
    (by rw [takeSeam_met (track_entering_of entering) (by simp [opened]), met]) follows.seams follows.boundary, follows⟩
  rw [opened] at ends
  exact (Option.some.inj (Boundary.opened.inj ends)).le

/-- With no entry free the segment absorbs the seam. -/
theorem trackAdvance_absorbs (kind : g.kind ≠ .seam) (full : b.track.free = 0)
    (unstarved : b.plan.staged = none ∨ g.origin ≠ .starved ∨ b.track.boundary ≠ .opened none)
    (inside : b.track.boundary = .opened none ∨ ∃ d, b.track.boundary = .opened (some d) ∧ x.motion.h < d) :
    trackAdvance x b = evaluateWants x (absorbSeam x g ⟨x.motion.h, none⟩ b) := by
  have ⟨seams, _, _, later, _, _⟩ := atH
  have inside' := inside.imp_right (Or.inl (b := ∃ c, b.track.boundary = .deferred c))
  have track := absorbSeam_track (x := x) (lastOf_of_entering entering) seams later
  have met : meetSeam x g ⟨x.motion.h, none⟩ b = absorbSeam x g ⟨x.motion.h, none⟩ b := by
    simp [meetSeam, atBoundary_inside inside' kind, kind, seamFits, full]
  refine trackAdvance_seam entering atH (starvedCheck_same entering unstarved) (ahead_inside inside')
    (by rw [takeSeam_met (track_entering_of entering) (notWaiting_inside inside'), met]) ?_ ?_
  · rw [evaluateWants_track, track]
    exact List.forall_mem_cons.mpr ⟨.inl rfl, fun e he => .inr (later e he)⟩
  · rw [evaluateWants_track, track]
    rcases inside with openEnded | ⟨d', opened, beyond⟩
    · exact .inl (by rw [openEnded]; rfl)
    · exact .inr ⟨max d' (position x.motion.h (x.motion.h + x.cfg.seamLength)), by rw [opened]; rfl, by omega⟩

end Seam

/-! ### The continuation at the end of a SEAM segment (R25, R28) -/

/-- The continuation admitted, the reference passing to it. -/
theorem admitContinuation_succession (last : LastOf b.track old g) (advance : Bool) (c : ContOwed) (p : Nat) :
    WebWork (b.setTrack (succession x.motion.h old (passedOn g) (continuationSegment c p)
        { b.track with segs := old ++ [passedOn g] })) (admitContinuation x advance g c p b) := by
  have passed : (b.modTrack (modSeg g.seq passedOn)).track = { b.track with segs := old ++ [passedOn g] } := last.modSeg passedOn
  have work := succeed_succession (b := b.modTrack (modSeg g.seq passedOn)) (old := old) (g := passedOn g) (g' := g)
    ⟨by rw [passed], last.apart⟩ rfl x advance (continuationSegment c p)
  rw [passed] at work
  exact work

/-- At the end of a SEAM segment its continuation follows. -/
theorem trackAdvance_continues (entering : Entering x b old g) (opened : b.track.boundary = .opened (some x.motion.h))
    (seam : dueSeam x.motion.h b.track = none) {c : ContOwed} (kind : g.kind = .seam) (owed : g.contOwed = some c)
    (room : 0 < b.track.free) (beyond : x.motion.h < c.plannedEnd) :
    trackAdvance x b = admitContinuation x true g c x.motion.h b := by
  have enough : ¬ b.track.free < entriesNeeded g := by simp only [entriesNeeded, kind, if_true]; omega
  have taken : takeBoundary x x.motion.h b = admitContinuation x true g c x.motion.h b := by
    unfold takeBoundary
    rw [track_entering_of entering]
    simp only [if_neg enough, owed]
  have work := admitContinuation_succession (x := x) (lastOf_of_entering entering) true c x.motion.h
  rw [trackAdvance_boundary entering (.inl opened) seam, taken]
  · rw [taken, dueSeam_of_seams work.track.seams]
    exact seam
  · rw [taken]
    exact dueBoundary_beyond work.track.boundary beyond

end Advance

end Sys2Proof.Machine
end

section
/-! The statement about seams settled from its cases (R25, R28, R31, R34 to R38, R88). -/

namespace Sys2Proof.Machine

/-- The continuation owed by a cut PRINT segment with the minimum order length left (R36, R196). -/
theorem owedBy_print {c : Anchor} {g : Segment} {h d : Nat} (kind : g.kind = .print) (ends : g.plannedEnd = some d)
    (left : (c.minOrder : Int) ≤ (d : Int) - h - c.seamLength) : owedBy c g h =
      some ⟨g.orderId.getD 0, g.tag.getD 0, presentRef g.setting, d, ((d : Int) - h - c.seamLength).toNat,
        g.flags.holdAtEnd⟩ := by
  simp only [owedBy, kind, ends, left, if_true]

theorem owedBy_none {c : Anchor} {g : Segment} {h : Nat}
    (short : g.kind = .blank ∨ ∀ d, g.plannedEnd = some d → (d : Int) - h - c.seamLength < c.minOrder) :
    owedBy c g h = none := by
  unfold owedBy
  split
  next d kind ends =>
    rcases short with blank | short
    · rw [kind] at blank
      exact SegKind.noConfusion blank
    · exact if_neg (not_le.mpr (short d ends))
  next => rfl

/-- A reference that counts on an entry is present. -/
theorem presentRef_counted {r : SettingRef} {i : Fin 8} (counted : r.counted = some i) : presentRef (some r) = some r := by
  have held : r.link ≠ .lost := fun lost => by simp [SettingRef.counted, lost] at counted
  simp [presentRef, Option.filter, held]

theorem presentRef_uncounted {r : Option SettingRef} (uncounted : r.bind SettingRef.counted = none) :
    (presentRef r).bind SettingRef.counted = none := by
  cases r with
  | none => rfl
  | some r =>
    rw [Option.bind_some] at uncounted
    cases lost : decide (r.link ≠ .lost) <;> simp [presentRef, Option.filter, lost, uncounted]

/-- A covered SEAM segment, with what it keeps of the continuation and of HOLD_AT_END. -/
theorem coveredSeg_eq (c : Anchor) (d tail : Nat) (g : Segment) :
    let owed := g.contOwed.bind fun o => Shortened c o ((tail : Int) - d)
    let dropped := (g.contOwed.filter fun _ => owed.isNone).map (·.holdAtEnd)
    coveredSeg c d tail g = { g with
      plannedEnd := some tail, contOwed := owed
      flags := { g.flags with holdAtEnd := g.flags.holdAtEnd || dropped.getD false } } := by
  cases owed : g.contOwed with
  | none => simp [coveredSeg, owed, extendSeg]
  | some o =>
    cases kept : Shortened c o ((tail : Int) - d) <;>
      simp [coveredSeg, owed, extendSeg, shortenedSeg, kept, Option.filter]

/-- Settles O28: a due seam over each kind of ENTERING segment and boundary, and the continuation after it. -/
theorem seamTruncatesTheEnteringSegment : Obligations.SeamTruncatesTheEnteringSegment := by
  refine ⟨fun x b g old e rest entering fresh atH => ?_, fun x b g old c entering opened seam kind owed room beyond => ?_⟩
  · obtain rfl := seamAtH_eq atH
    have last := lastOf_of_entering entering
    have ⟨live, _⟩ := entering
    have ⟨seams, _, _, later, _, fits⟩ := atH
    refine ⟨fun kind room unstarved inside => ?_, fun p waiting beyond below room numbers => ?_,
      fun d kind opened ends inside => ?_, fun opened room => ?_, fun kind full unstarved inside => ?_⟩
    · have advance := trackAdvance_truncates entering atH kind room unstarved inside
      have cache := truncateAt_cache (x := x) last seams later
      obtain ⟨cut, _⟩ := cutBlocks_others (b := b) (g := g) (e := ⟨x.motion.h, none⟩)
      dsimp only
      rw [advance, evaluateWants_track, evaluateWants_cache, evaluateWants_cues]
      refine ⟨truncateAt_shapes last seams later, ?_, truncateAt_seams last seams later, truncateAt_split last seams later fresh,
        fun d print ends left => ?_, fun short => ?_, fun print => truncateAt_cues last seams later print⟩
      · rw [truncateAt_boundary last seams later, position_of_lt fits]
      · have owed := owedBy_print print ends left
        obtain ⟨s, follows, carries, hold⟩ := truncateAt_entering (x := x) last seams later
        rw [owed] at carries hold
        refine ⟨⟨s, follows, carries, by simpa using hold⟩, fun r i held counted => ?_, fun uncounted => ?_⟩
        · rw [cache, claimOwed_counted (r := r) (by rw [owed, held, presentRef_counted counted]; rfl) counted, cut]
        · rw [cache, claimOwed_uncounted (by rw [owed]; exact presentRef_uncounted uncounted), cut]
      · have owed := owedBy_none short
        obtain ⟨s, follows, carries, hold⟩ := truncateAt_entering (x := x) last seams later
        rw [owed] at carries hold
        refine ⟨⟨s, follows, carries, by simpa using hold⟩, ?_⟩
        rw [cache, claimOwed_uncounted (by rw [owed]; rfl), cut]
    · obtain ⟨old', n, last', seams', shapes, shape, counter, plan, advance⟩ :=
        trackAdvance_waiting entering atH fresh waiting beyond below room numbers
      obtain ⟨seq, kind, origin, head, _⟩ : n.seq = b.track.seqCounter + 1 ∧ n.kind = .blank ∧ n.origin = .starved ∧
          n.head = p ∧ n.length = none := by simpa [segmentShape] using shape
      rw [advance, evaluateWants_track, evaluateWants_plan]
      refine ⟨?_, ?_, truncateAt_seams last' seams' later, (truncateAt_plan last' seams' later).trans plan⟩
      · rw [truncateAt_shapes last' seams' later, shapes, counter]
        simp [segmentShape, closeSeg, seq, kind, origin, head]
      · rw [truncateAt_boundary last' seams' later, position_of_lt fits]
    · dsimp only
      rw [trackAdvance_covers entering atH kind opened ends inside, coveredSeg_eq]
    · obtain ⟨advance, follows⟩ := trackAdvance_atEnd entering atH opened room fresh
      dsimp only
      rw [advance, evaluateWants_track]
      exact ⟨follows.shapes, follows.boundary, follows.seams, follows.split,
        fun kind => seamAtBoundary_hold last seams later kind,
        fun c kind owed => seamAtBoundary_owed last seams later fresh kind owed⟩
    · dsimp only
      rw [trackAdvance_absorbs entering atH kind full unstarved inside, evaluateWants_track, evaluateWants_causes,
        absorbSeam_track last seams later]
      refine ⟨?_, absorbSeam_raised live g _⟩
      rw [position_of_lt fits]
      rcases inside with openEnded | ⟨d, opened, _⟩
      · rw [openEnded]
        rfl
      · rw [opened]
        rfl
  · have work := admitContinuation_succession (x := x) (lastOf_of_entering entering) true c x.motion.h
    obtain ⟨s, follows, carried⟩ := succession_entering work.track rfl
    have same := carried.fields
    rw [trackAdvance_continues entering opened seam kind owed room beyond]
    exact ⟨succession_shapes work.track rfl, work.track.boundary, work.plan, work.cache, s, follows, same.orderId,
      same.tag, same.setting, same.plannedEnd, same.holdAtEnd⟩

end Sys2Proof.Machine
end

section
/-! What the completion of a host word and of an internal access leaves of the part, the path unit apart; and what a
rejection leaves (R53, R57, R61, R173, R175). -/

namespace Sys2Proof.Machine

/-! ### Work that reads nothing of the path unit -/

/-- The blocks `b'` are `b`, the path unit apart; the freeze and the dropped-write count are those of `p`. -/
def ButPath (p : Path) (b b' : Blocks) : Prop := ∃ q, b' = b.setPath q ∧ q.freeze = p.freeze ∧ q.dropped = p.dropped

theorem ButPath.refl (b : Blocks) : ButPath b.path b b := ⟨_, rfl, rfl, rfl⟩

section Work
variable {p : Path} {b b' : Blocks} (h : ButPath p b b')
include h

theorem ButPath.modPlan (f : Plan → Plan) : ButPath p (b.modPlan f) (b'.modPlan f) := by
  obtain ⟨q, rfl, kept⟩ := h
  exact ⟨q, rfl, kept⟩

theorem ButPath.modCache (f : Cache → Cache) : ButPath p (b.modCache f) (b'.modCache f) := by
  obtain ⟨q, rfl, kept⟩ := h
  exact ⟨q, rfl, kept⟩

theorem ButPath.raise (k : CauseKind) (source : Nat) :
    ButPath p (Machine.raise k source b) (Machine.raise k source b') := by
  obtain ⟨q, rfl, kept⟩ := h
  exact ⟨q, raiseAt_setPath .., kept⟩

theorem ButPath.lookupStaged (n : Nat) : ButPath p (Machine.lookupStaged n b) (Machine.lookupStaged n b') := by
  obtain ⟨q, rfl, kept⟩ := h
  refine ⟨q, ?_, kept⟩
  unfold Machine.lookupStaged
  dsimp only [Blocks.setPath_cache]
  split
  · exact raiseAt_setPath (b := tellStaged .waitingEntry (b.setCache _)) ..
  · rfl

/-- A withdrawal of the cache's request is work on the path unit that keeps the freeze and the dropped count (R184). -/
theorem ButPath.withdrawFetch (e : Fin 8) : ButPath p b (Machine.withdrawFetch e b') := by
  obtain ⟨q, rfl, freeze, dropped⟩ := h
  unfold Machine.withdrawFetch
  split
  · obtain ⟨slots, run, eq, _⟩ := withdraw_eq q .cache
    exact ⟨q.withdraw .cache, rfl, by rw [eq]; exact freeze, by rw [eq]; exact dropped⟩
  · exact ⟨q, rfl, freeze, dropped⟩

end Work

/-! ### Completions -/

theorem freePort_butPath (s : State) : ButPath s.blk.path s.blk (freePort s.blk) := ⟨_, rfl, rfl, rfl⟩

theorem wordBlocks_butPath {s : State} {w : CarriedWord} {v : WriteWord} {win : Window} {off : Nat}
    (carries : CarriesWrite s w v win off) : ButPath s.blk.path s.blk (wordBlocks s w) := by
  obtain ⟨_, pass, _⟩ := carries
  exact ⟨_, rfl, rfl, if_pos pass⟩

/-- The class of a write word that is carried and not dropped. -/
theorem wordClass_of_carries {s : State} {w : CarriedWord} {v : WriteWord} {win : Window} {off : Nat}
    (carries : CarriesWrite s w v win off) : wordClass s.ctx s.blk w = classOf s.blk v (win, off) := by
  obtain ⟨_, pass, word, enabled, place⟩ := carries
  rw [wordClass, pass, word]
  exact (if_neg enabled).trans (congrArg _ place)

/-- A write word that is carried and not dropped reaches memory (R175). -/
theorem carryWord_of_carries {s : State} {w : CarriedWord} {v : WriteWord} {win : Window} {off : Nat}
    (carries : CarriesWrite s w v win off) : carryWord w s.mem = s.mem.writeWord w.addr v.enables v.value := by
  obtain ⟨_, pass, word, _⟩ := carries
  rw [carryWord, pass, word]

/-- A write word completes by an effect of its class that keeps the freeze and the dropped count (R175). -/
theorem completeWord_leaves {s : State} {w : CarriedWord} {v : WriteWord} {win : Window} {off : Nat}
    (carries : CarriesWrite s w v win off) {decision : Decision} {effect : Ctx → CarriedWord → Blocks → Blocks}
    {b : Blocks} (work : ButPath s.blk.path b (effect s.ctx w (wordBlocks s w))) :
    WordLeaves s w v b (completeWord (classOf s.blk v (win, off)) decision effect s) := by
  obtain ⟨carried, _⟩ := id carries
  obtain ⟨follows, freeze, dropped, _⟩ :=
    completeWord_spec (decision := decision) (effect := effect) carried (wordClass_of_carries carries)
  obtain ⟨q, eq, freeze', dropped'⟩ := work
  rw [eq] at follows freeze dropped
  rw [carryWord_of_carries carries] at follows
  exact ⟨followsButPath_setPath follows, freeze.trans freeze', dropped.trans dropped'⟩

/-- An internal access completes by an effect on the blocks that keeps the freeze and the dropped count (R173). -/
theorem completeAccess_leaves {s : State} {a : Access} (carries : CarriesAccess s a) {kinds : List AccessKind}
    (kind : a.kind ∈ kinds) {decision : Decision} {f : Ctx → List Word → Blocks → Blocks} {b : Blocks}
    (work : ButPath s.blk.path b (f s.ctx (readBy s a) (freePort s.blk))) :
    AccessLeaves s a b (completeAccess kinds decision (onBlocks f) s) := by
  obtain ⟨follows, freeze, dropped, _⟩ := completeAccess_spec (decision := decision) (f := f) carries kind
  obtain ⟨q, eq, freeze', dropped'⟩ := work
  unfold readBy at eq
  rw [eq] at follows
  simp only [State.setBlk_blk, eq] at freeze dropped
  exact ⟨followsButPath_setPath follows, freeze.trans freeze', dropped.trans dropped'⟩

/-! ### A rejection (R57, R61, R158) -/

@[simp] theorem raiseAt_rejections (k : CauseKind) (source : Nat) (level : Level) (b : Blocks) :
    (raiseAt k source level b).report.rejections = b.report.rejections := by
  rw [raiseAt_report]

/-- A record that joins the queue, or is lost, changes the cause set and the report unit alone. -/
structure OffQueue (a b : Blocks) : Prop where
  track : b.track = a.track
  plan : b.plan = a.plan
  cache : b.cache = a.cache
  rejections : b.report.rejections = a.report.rejections
  live : b.live = a.live

theorem queueRecord_off (r : OutRecord) (b : Blocks) : OffQueue b (queueRecord r b) := by
  unfold queueRecord
  split
  · dsimp only
    split
    · constructor <;> simp [raise, raiseAt_track_other]
    · exact ⟨rfl, rfl, rfl, rfl, rfl⟩
  · have count : (loseRecord r b.report).rejections = b.report.rejections := by unfold loseRecord; split <;> rfl
    constructor <;> simp [raise, raiseAt_track_other, count]

/-- With a place free a record joins the queue at its newest end (R159). -/
theorem queueRecord_queued (r : OutRecord) {b : Blocks} (room : b.report.queue.length < 8) :
    (queueRecord r b).report.queue = b.report.queue ++ [r] := by
  unfold queueRecord
  rw [if_pos (show b.report.queue.length < Config.queuePlaces from room)]
  dsimp only
  split
  · exact raiseAt_queue ..
  · rfl

/-- What a rejection leaves: the plan reader's count, the latched cause, the record and its number; the track and the
setting cache stay. -/
structure Rejected (id : BitVec 16) (slot : Nat) (reason : RejectReason) (a b : Blocks) : Prop where
  plan : b.plan = { a.plan with rejected := inc32 a.plan.rejected }
  track : b.track = a.track
  cache : b.cache = a.cache
  latched : a.live = true → (b.causes.entry .orderRejected).isSome = true
  rejections : b.report.rejections = a.report.rejections + 1
  queue : a.report.queue.length < 8 →
    b.report.queue = a.report.queue ++ [rejectionRecord (a.report.rejections + 1) id slot reason]

theorem rejectOrder_rejected (id : BitVec 16) (slot : Nat) (reason : RejectReason) (b : Blocks) :
    Rejected id slot reason b (rejectOrder id slot reason b) := by
  have off := queueRecord_off (rejectionRecord (b.report.rejections + 1) id slot reason)
    (b.modReport fun p => { p with rejections := p.rejections + 1 })
  unfold rejectOrder reportRejected
  exact {
    plan := by rw [raise, raiseAt_plan, Blocks.modPlan_plan, off.plan]; rfl
    track := by rw [raise, raiseAt_track_other (h := by decide)]; exact off.track
    cache := by rw [raise, raiseAt_cache]; exact off.cache
    latched := fun live => raise_latched .orderRejected slot (off.live.trans live)
    rejections := by rw [raise, raiseAt_rejections]; exact off.rejections
    queue := fun room => by rw [raise, raiseAt_queue]; exact queueRecord_queued _ room }

/-- The end of a step keeps what a rejection leaves, but for a take that it begins (R54). -/
theorem rejected_of_follows {u t : State} (follows : FollowsButPath u t) {id : BitVec 16} {slot : Nat}
    {reason : RejectReason} {b : Blocks} (live : b.live = true) (rejected : Rejected id slot reason b u.blk) :
    PlanFollows { b.plan with rejected := inc32 b.plan.rejected } t.blk.plan ∧
    (t.blk.causes.entry .orderRejected).isSome = true ∧ t.blk.track = b.track ∧ t.blk.cache = b.cache ∧
    t.blk.report.rejections = b.report.rejections + 1 ∧
    (b.report.queue.length < 8 →
      t.blk.report.queue = b.report.queue ++ [rejectionRecord (b.report.rejections + 1) id slot reason]) := by
  obtain ⟨_, _, _, _, causes, track, cache, _, _, _, _, plan, ⟨report, _⟩, _⟩ := follows
  rw [rejected.plan] at plan
  refine ⟨plan, ?_, track.trans rejected.track, cache.trans rejected.cache, ?_, fun room => ?_⟩
  · rw [causes]; exact rejected.latched live
  · rw [report]; exact rejected.rejections
  · rw [report]; exact rejected.queue room

end Sys2Proof.Machine
end

section
/-! The plan reader: the posting of slots, and the writes that protected slots drop (R49 to R53, R175, R176). -/

namespace Sys2Proof.Machine

/-! ### Closing words (R49 to R52) -/

theorem ne_zero_of_validClosing {w : Word} (valid : validClosing w = true) : w ≠ 0 := by
  rintro rfl
  exact absurd valid (by decide)

/-- A word of the plan window that is not dropped is judged where it completes a full closing word (R49). -/
theorem planEffect_carries {s : State} {w : CarriedWord} {v : WriteWord} {off : Nat}
    (carries : CarriesWrite s w v .plan off) :
    planEffect s.ctx w (wordBlocks s w) = planWord s.ctx off v (wordBlocks s w) := by
  obtain ⟨_, pass, word, _, place⟩ := carries
  have place' : w.place s.ctx (wordBlocks s w) = (.plan, off) := place
  rw [planEffect, pass, word, place']

theorem planWord_closing {off : Nat} {v : WriteWord} (last : off % 4 = 3) (full : v.enables = 0xF#4)
    (nonzero : v.value ≠ 0) (x : Ctx) (b : Blocks) : planWord x off v b = judgeClosing x (off / 4) v.value b :=
  if_pos ⟨last, full, nonzero⟩

theorem planWord_other {v : WriteWord} (other : v.enables ≠ 0xF#4 ∨ v.value = 0) (x : Ctx) (off : Nat) (b : Blocks) :
    planWord x off v b = b := by
  refine if_neg fun ⟨_, full, nonzero⟩ => ?_
  rcases other with partly | zero
  · exact partly full
  · exact nonzero zero

theorem judgeClosing_bad {w : Word} (bad : validClosing w = false) (x : Ctx) (slot : Nat) (b : Blocks) :
    judgeClosing x slot w b = raise .planBadClose slot b := by
  rw [judgeClosing, bad]
  rfl

theorem judgeClosing_posts {w : Word} (valid : validClosing w = true) (x : Ctx) {slot : Nat} {b : Blocks}
    (here : slot = b.plan.postIndex) : judgeClosing x slot w b = b.modPlan (postSlot x.cfg.planSlots) := by
  rw [judgeClosing, valid]
  exact if_pos here

theorem judgeClosing_elsewhere {w : Word} (valid : validClosing w = true) (x : Ctx) {slot : Nat} {b : Blocks}
    (elsewhere : slot ≠ b.plan.postIndex) : judgeClosing x slot w b = raise .planOutOfOrder slot b := by
  rw [judgeClosing, valid]
  exact if_neg elsewhere

/-- A word of the plan window that is not dropped completes with what its judgement does. -/
theorem planWrite_leaves {s : State} {w : CarriedWord} {v : WriteWord} {off : Nat} (carries : CarriesWrite s w v .plan off)
    (decision : Decision) {b : Blocks} (work : ButPath s.blk.path b (planWord s.ctx off v (wordBlocks s w))) :
    ∃ t, exec (.planWrite decision) s = .next t ∧ WordLeaves s w v b t :=
  ⟨_, rfl, completeWord_leaves carries (by rw [planEffect_carries carries]; exact work)⟩

/-- The end of a step keeps the causes. -/
theorem causes_of_wordLeaves {s t : State} {w : CarriedWord} {v : WriteWord} {b : Blocks} (leaves : WordLeaves s w v b t) :
    t.blk.causes = b.causes := by
  obtain ⟨⟨_, _, _, _, causes, _⟩, _⟩ := leaves
  exact causes

/-- The end of a step keeps the indices and the posted count of the plan reader. -/
theorem ring_of_planFollows {u t : Plan} (follows : PlanFollows u t) :
    t.posted = u.posted ∧ t.postIndex = u.postIndex ∧ t.takeIndex = u.takeIndex := by
  rcases follows with rfl | ⟨_, _, _, rfl⟩ <;> exact ⟨rfl, rfl, rfl⟩

/-- Settles O30: the word is judged a valid closing word at the post index. -/
theorem closingWordAtThePostIndexPosts : Obligations.ClosingWordAtThePostIndexPosts := by
  intro s w v off decision carries last full valid here
  refine planWrite_leaves carries decision ?_
  rw [planWord_closing last full (ne_zero_of_validClosing valid), judgeClosing_posts valid s.ctx (b := wordBlocks s w) here]
  exact (wordBlocks_butPath carries).modPlan _

/-- Settles O31: the word is judged a valid closing word away from the post index. -/
theorem closingWordElsewhereIsOutOfOrder : Obligations.ClosingWordElsewhereIsOutOfOrder := by
  refine ⟨fun s w v off decision carries last full valid elsewhere live => ?_, fun _ _ => rfl⟩
  have work : ButPath s.blk.path (raise .planOutOfOrder (off / 4) s.blk) (planWord s.ctx off v (wordBlocks s w)) := by
    rw [planWord_closing last full (ne_zero_of_validClosing valid),
      judgeClosing_elsewhere valid s.ctx (b := wordBlocks s w) elsewhere]
    exact (wordBlocks_butPath carries).raise ..
  obtain ⟨t, answers, leaves⟩ := planWrite_leaves carries decision work
  obtain ⟨⟨_, _, _, _, _, _, _, _, _, _, _, plan, _⟩, _⟩ := id leaves
  have ring := ring_of_planFollows plan
  simp only [State.setBlk_blk, raise, raiseAt_plan] at ring
  refine ⟨t, answers, leaves, ?_, ring⟩
  rw [causes_of_wordLeaves leaves]
  exact raiseAt_raised _ _ _ _ live

/-- Settles O32: the word is judged a bad closing word, or no closing word. -/
theorem badClosingWordsPostNothing : Obligations.BadClosingWordsPostNothing := by
  refine ⟨fun s w v off decision carries last live => ⟨fun full nonzero bad => ?_, fun other => ?_⟩, fun _ _ => rfl⟩
  · have work : ButPath s.blk.path (raise .planBadClose (off / 4) s.blk) (planWord s.ctx off v (wordBlocks s w)) := by
      rw [planWord_closing last full nonzero, judgeClosing_bad bad]
      exact (wordBlocks_butPath carries).raise ..
    obtain ⟨t, answers, leaves⟩ := planWrite_leaves carries decision work
    refine ⟨t, answers, leaves, ?_⟩
    rw [causes_of_wordLeaves leaves]
    exact raiseAt_raised _ _ _ _ live
  · refine planWrite_leaves carries decision ?_
    rw [planWord_other other]
    exact wordBlocks_butPath carries

/-! ### Protected slots (R53, R176) -/

/-- The protected slots are the posted ones, counted around the ring from the take index. -/
theorem planProtected_iff {x : Ctx} {p : Plan} {k : Nat} (slot : k < x.cfg.planSlots) (take : p.takeIndex < x.cfg.planSlots)
    (posted : p.posted ≤ x.cfg.planSlots) :
    planProtected x p k = true ↔ ∃ j < p.posted, (p.takeIndex + j) % x.cfg.planSlots = k := by
  rw [planProtected, decide_eq_true_iff]
  constructor
  · intro near
    refine ⟨_, near, ?_⟩
    rw [Nat.add_mod_mod, show p.takeIndex + (k + x.cfg.planSlots - p.takeIndex) = k + x.cfg.planSlots by omega,
      Nat.add_mod_right, Nat.mod_eq_of_lt slot]
  · rintro ⟨j, near, rfl⟩
    have back : ((p.takeIndex + j) % x.cfg.planSlots + x.cfg.planSlots - p.takeIndex) % x.cfg.planSlots = j := by
      by_cases wraps : p.takeIndex + j < x.cfg.planSlots
      · rw [Nat.mod_eq_of_lt wraps, show p.takeIndex + j + x.cfg.planSlots - p.takeIndex = j + x.cfg.planSlots by omega,
          Nat.add_mod_right, Nat.mod_eq_of_lt (by omega)]
      · have around : (p.takeIndex + j) % x.cfg.planSlots = p.takeIndex + j - x.cfg.planSlots := by
          rw [Nat.mod_eq_sub_mod (by omega), Nat.mod_eq_of_lt (by omega)]
        rw [around, show p.takeIndex + j - x.cfg.planSlots + x.cfg.planSlots - p.takeIndex = j by omega,
          Nat.mod_eq_of_lt (by omega)]
    rw [back]
    exact near

/-- A non-empty word of the plan window is judged by its slot (R175). -/
theorem judgeWord_plan {x : Ctx} {b : Blocks} {a : HostAccess} {i off : Nat} {v : WriteWord}
    (word : hostWriteWord a i = some v) (enabled : v.enables ≠ 0) (place : windowOf x b (hostWordAt a i) = (.plan, off)) :
    judgeWord x b a i = if planProtected x b.plan (off / 4) then .dropPlan (off / 4) else .pass := by
  rw [judgeWord, word]
  dsimp only
  rw [if_neg enabled, place]

/-- Settles O33: the ring's arithmetic, the drop test, and the completion of a dropped word. -/
theorem protectedSlotsDropWrites : Obligations.ProtectedSlotsDropWrites := by
  refine ⟨fun x p k => planProtected_iff, fun x b a i v off => judgeWord_plan,
    fun s w slot decision carried dropped live => ?_⟩
  have plan : wordClass s.ctx s.blk w = .plan := by rw [wordClass, dropped]
  obtain ⟨follows, _, count, _⟩ := completeWord_spec (decision := decision) (effect := planEffect) carried plan
  have stays : carryWord w s.mem = s.mem := by rw [carryWord, dropped]
  have effect : planEffect s.ctx w (wordBlocks s w) =
      (raise .planOverwrite slot s.blk).setPath (wordBlocks s w).path := by
    rw [planEffect, dropped]
    exact raiseAt_setPath ..
  have counted : (wordBlocks s w).path.dropped = inc32 s.blk.path.dropped := if_neg (by rw [dropped]; nofun)
  rw [stays, effect] at follows
  rw [effect] at count
  have follows' : FollowsButPath (s.setBlk (raise .planOverwrite slot s.blk)) _ := followsButPath_setPath follows
  obtain ⟨_, _, mem, _, causes, _⟩ := id follows'
  refine ⟨_, rfl, mem, count.trans counted, follows', ?_⟩
  rw [causes]
  exact raiseAt_raised _ _ _ _ live

end Sys2Proof.Machine
end

section
/-! The validation of the slot read, and the end of a take (R48, R54 to R59). -/

namespace Sys2Proof.Machine

/-! ### Validation (R48, R55) -/

/-- The unsigned field of a word, as a number of bits extracted. -/
theorem fld_eq_extract (w : Word) (lo n : Nat) : fld w lo n = (w.extractLsb' lo n).toNat := by
  rw [fld, BitVec.extractLsb'_toNat]

theorem ofCode_eq_some {c : Nat} {k : OrderKind} : OrderKind.ofCode c = some k ↔ k.code = c := by
  constructor
  · unfold OrderKind.ofCode
    split <;> rintro ⟨⟩ <;> rfl
  · rintro rfl
    cases k <;> rfl

theorem ofCode_eq_none {c : Nat} (other : c ∉ [1, 2, 3]) : OrderKind.ofCode c = none := by
  cases known : OrderKind.ofCode c with
  | none => rfl
  | some k =>
    rw [ofCode_eq_some] at known
    subst known
    cases k <;> exact absurd other (by decide)

section Validation
variable {minOrder slot : Nat} {ws : List Word}

/-- The order that the words of a slot describe, of a kind. -/
def orderIn (slot : Nat) (ws : List Word) (kind : OrderKind) : StagedOrder :=
  orderOf kind slot (wordAt ws 0) (wordAt ws 1) (wordAt ws 2) (closingId (wordAt ws 3))

theorem validateOrder_badClose (bad : validClosing (wordAt ws 3) = false) :
    validateOrder minOrder slot ws = .invalid (closingId (wordAt ws 3)) .badClose := by
  rw [validateOrder, bad]
  rfl

theorem validateOrder_badKind (valid : validClosing (wordAt ws 3) = true) (other : fld (wordAt ws 0) 0 4 ∉ [1, 2, 3]) :
    validateOrder minOrder slot ws = .invalid (closingId (wordAt ws 3)) .badKind := by
  rw [validateOrder, valid, ofCode_eq_none other]
  rfl

variable {kind : OrderKind} (valid : validClosing (wordAt ws 3) = true) (code : kind.code = fld (wordAt ws 0) 0 4)
include valid code

/-- With a valid closing word and a kind, what the kind uses is judged: its length, and then its setting number. -/
theorem validateOrder_kind : validateOrder minOrder slot ws =
    if kind.usesLength && !decide (minOrder ≤ (wordAt ws 1).toNat ∧ (wordAt ws 1).toNat ≤ 2147483648)
    then .invalid (closingId (wordAt ws 3)) .badLength
    else if kind.usesSetting && !decide (fld (wordAt ws 0) 8 10 ≤ 511)
    then .invalid (closingId (wordAt ws 3)) .badSettingNumber
    else .valid (orderIn slot ws kind) := by
  rw [validateOrder, valid, ofCode_eq_some.mpr code]
  rfl

theorem validateOrder_badLength (uses : kind.usesLength = true)
    (bad : ¬ (minOrder ≤ (wordAt ws 1).toNat ∧ (wordAt ws 1).toNat ≤ 2147483648)) :
    validateOrder minOrder slot ws = .invalid (closingId (wordAt ws 3)) .badLength := by
  rw [validateOrder_kind valid code]
  simp only [uses, bad, decide_false, Bool.not_false, Bool.and_self, if_true]

variable (length : kind.usesLength = true → minOrder ≤ (wordAt ws 1).toNat ∧ (wordAt ws 1).toNat ≤ 2147483648)
include length

/-- Past the check of the length the setting number is judged. -/
theorem validateOrder_measured : validateOrder minOrder slot ws =
    if kind.usesSetting && !decide (fld (wordAt ws 0) 8 10 ≤ 511)
    then .invalid (closingId (wordAt ws 3)) .badSettingNumber else .valid (orderIn slot ws kind) := by
  rw [validateOrder_kind valid code]
  refine if_neg ?_
  cases uses : kind.usesLength with
  | false => simp
  | true => simpa using length uses

theorem validateOrder_badSettingNumber (uses : kind.usesSetting = true) (bad : 511 < fld (wordAt ws 0) 8 10) :
    validateOrder minOrder slot ws = .invalid (closingId (wordAt ws 3)) .badSettingNumber := by
  rw [validateOrder_measured valid code length]
  exact if_pos (by simpa [uses] using bad)

theorem validateOrder_valid (number : kind.usesSetting = true → fld (wordAt ws 0) 8 10 ≤ 511) :
    validateOrder minOrder slot ws = .valid (orderIn slot ws kind) := by
  rw [validateOrder_measured valid code length]
  refine if_neg ?_
  cases uses : kind.usesSetting with
  | false => simp
  | true => simpa using number uses

end Validation

/-- The slot read of a take returns (R54, R55). -/
theorem planReadDone_reading {b : Blocks} (reading : b.plan.take = .reading) (x : Ctx) (ws : List Word) :
    planReadDone x ws b = b.modPlan fun p =>
      { p with take := .freeing, result := some (validateOrder x.cfg.minOrder p.takeIndex ws) } := by
  simp only [planReadDone, Blocks.modPlan, reading, if_true]

/-- Settles O34: the slot read's completion, and the checks of the validation in their order. -/
theorem planReadIsValidated : Obligations.PlanReadIsValidated := by
  refine ⟨fun s a decision carries kind reading => ⟨_, rfl, ?_⟩, fun minOrder slot ws => ?_⟩
  · refine completeAccess_leaves carries (by simp [kind]) ?_
    rw [planReadDone_reading (b := freePort s.blk) reading]
    exact (freePort_butPath s).modPlan _
  · simp only [← fld_eq_extract]
    refine ⟨validateOrder_badClose, fun valid => ⟨validateOrder_badKind valid, fun measured bad => ?_,
      fun uses bad => ?_, fun ok => ?_⟩⟩
    · have bad' : ¬ (minOrder ≤ (wordAt ws 1).toNat ∧ (wordAt ws 1).toNat ≤ 2147483648) := by omega
      rcases (by simpa using measured : _ ∨ _) with print | blank
      · exact validateOrder_badLength (kind := .printLength) valid print.symm rfl bad'
      · exact validateOrder_badLength (kind := .blankLength) valid blank.symm rfl bad'
    · rcases uses with untilSeam | ⟨print, length⟩
      · exact validateOrder_badSettingNumber (kind := .printUntilSeam) valid untilSeam.symm nofun rfl bad
      · exact validateOrder_badSettingNumber (kind := .printLength) valid print.symm (fun _ => length) rfl bad
    · have holds {kind : OrderKind} (code : kind.code = fld (wordAt ws 0) 0 4)
          (result : validateOrder minOrder slot ws = .valid (orderIn slot ws kind)) :
          ∃ o, validateOrder minOrder slot ws = .valid o ∧ o.orderId = closingId (wordAt ws 3) ∧
            o.length = (wordAt ws 1).toNat ∧ o.slot = slot ∧ o.settingNumber = fld (wordAt ws 0) 8 10 ∧
            o.tag = wordAt ws 2 ∧ o.kind.code = fld (wordAt ws 0) 0 4 ∧ o.align = (wordAt ws 0).getLsbD 24 ∧
            o.holdAtEnd = (wordAt ws 0).getLsbD 25 := ⟨_, result, rfl, rfl, rfl, rfl, rfl, code, rfl, rfl⟩
      rcases ok with ⟨code, number⟩ | ⟨code, number, length⟩ | ⟨code, length⟩
      · exact holds (kind := .printUntilSeam) code.symm (validateOrder_valid valid code.symm nofun fun _ => number)
      · exact holds (kind := .printLength) code.symm
          (validateOrder_valid valid code.symm (fun _ => length) fun _ => number)
      · exact holds (kind := .blankLength) code.symm (validateOrder_valid valid code.symm (fun _ => length) nofun)

/-! ### The end of a take (R56 to R59) -/

/-- The plan reader as a freeing write completes, before its order is staged or rejected (R56). -/
def takeEnded (n : Nat) (p : Plan) : Plan :=
  { p with
    posted := p.posted - 1, takeIndex := nextSlot n p.takeIndex, taken := inc32 p.taken, take := .idle, result := none }

section Freed
variable {b : Blocks} (freeing : b.plan.take = .freeing) (x : Ctx)
include freeing

theorem freeingDone_valid {o : StagedOrder} (result : b.plan.result = some (.valid o)) :
    freeingDone x b = stageOrder o (b.modPlan (takeEnded x.cfg.planSlots)) := by
  rw [freeingDone, if_pos freeing, result]
  rfl

theorem freeingDone_invalid {id : BitVec 16} {reason : RejectReason} (result : b.plan.result = some (.invalid id reason)) :
    freeingDone x b = rejectOrder id b.plan.takeIndex reason (b.modPlan (takeEnded x.cfg.planSlots)) := by
  rw [freeingDone, if_pos freeing, result]
  rfl

end Freed

/-- An order without a setting is staged (R58). -/
theorem stageOrder_plain {o : StagedOrder} (plain : o.kind.usesSetting = false) (b : Blocks) :
    stageOrder o b = b.modPlan fun p => { p with staged := some o, take := .staged } := by
  rw [stageOrder, plain]
  rfl

/-- A PRINT order is staged and its setting looked up (R59). -/
theorem stageOrder_looksUp {o : StagedOrder} (uses : o.kind.usesSetting = true) (b : Blocks) : stageOrder o b =
    lookupStaged o.settingNumber (b.modPlan fun p => { p with staged := some o, take := .staged }) := by
  rw [stageOrder, uses]
  rfl

theorem usesSetting_of_ne {k : OrderKind} (other : k ≠ .blankLength) : k.usesSetting = true := by
  cases k with
  | blankLength => exact absurd rfl other
  | printLength | printUntilSeam => rfl

/-- Settles O35: the take ends with its order staged, staged and looked up, or rejected. -/
theorem freeingWriteEndsTheTake : Obligations.FreeingWriteEndsTheTake := by
  intro s a decision carries kind freeing live
  have ended := (freePort_butPath s).modPlan (takeEnded s.cfg.planSlots)
  have staged (o : StagedOrder) := ended.modPlan fun p => { p with staged := some o, take := .staged }
  refine ⟨fun o result blank => ⟨_, rfl, ?_⟩, fun o result print => ⟨_, rfl, ?_⟩, fun id reason result => ⟨_, rfl, ?_⟩⟩
  · refine completeAccess_leaves carries (by simp [kind]) ?_
    rw [freeingDone_valid (b := freePort s.blk) freeing s.ctx result, stageOrder_plain (by rw [blank]; rfl)]
    exact staged o
  · refine completeAccess_leaves carries (by simp [kind]) ?_
    rw [freeingDone_valid (b := freePort s.blk) freeing s.ctx result, stageOrder_looksUp (usesSetting_of_ne print)]
    exact (staged o).lookupStaged _
  · obtain ⟨follows, _⟩ := completeAccess_spec (kinds := [.freeingWrite]) (decision := decision)
      (f := fun x _ b => freeingDone x b) carries (by simp [kind])
    rw [freeingDone_invalid (b := freePort s.blk) freeing s.ctx result] at follows
    obtain ⟨plan, latched, track, _, rejections, queue⟩ := rejected_of_follows follows
      (b := (freePort s.blk).modPlan (takeEnded s.cfg.planSlots)) live (rejectOrder_rejected ..)
    obtain ⟨_, _, mem, _⟩ := follows
    exact ⟨mem, plan, latched, track, rejections, queue⟩

end Sys2Proof.Machine
end

section
/-! The setting cache: the current entry of a number, the choice of an entry, and the lookup of the staged order (R59, R68
to R72). -/

namespace Sys2Proof.Machine

/-! ### The current entry and the chosen one (R68, R70) -/

section Cache
variable {c : Cache}

/-- The current entry of a number is FETCHING or READY under it. -/
theorem of_current_eq_some {n : Nat} {e : Fin 8} (current : c.current n = some e) :
    c.entries[e].number = n ∧ (c.entries[e].state = .fetching ∨ c.entries[e].state = .ready) := by
  simpa using List.find?_some current

theorem of_current_eq_none {n : Nat} (miss : c.current n = none) (e : Fin 8) (number : c.entries[e].number = n) :
    c.entries[e].state ≠ .fetching ∧ c.entries[e].state ≠ .ready := by
  have other := of_decide_eq_false (Bool.eq_false_iff.mpr (List.find?_eq_none.mp miss e (List.mem_finRange e)))
  exact ⟨fun fetching => other ⟨number, .inl fetching⟩, fun ready => other ⟨number, .inr ready⟩⟩

/-- The first number of which a decidable property holds. -/
theorem find?_finRange {n : Nat} {p : Fin n → Bool} {e : Fin n} (holds : p e = true) (below : ∀ i < e, p i = false) :
    (List.finRange n).find? p = some e := by
  rw [List.find?_eq_some_iff_getElem]
  exact ⟨holds, e, by simp, by simp, fun j lt => by simpa using below ⟨j, lt.trans e.isLt⟩ lt⟩

/-- The lowest FREE entry is chosen. -/
theorem choose_free {e : Fin 8} (free : c.entries[e].state = .free)
    (below : ∀ i : Fin 8, i < e → c.entries[i].state ≠ .free) : c.choose = some e := by
  have first : cacheEntries.find? (fun i => decide (c.entries[i].state = .free)) = some e :=
    find?_finRange (decide_eq_true free) fun i lt => decide_eq_false (below i lt)
  rw [Cache.choose, first]
  rfl

/-- With no entry FREE the choice falls on the use order. -/
theorem choose_used (held : ∀ e : Fin 8, c.entries[e].state ≠ .free) : c.choose =
    c.useOrder.find? fun e => decide (c.entries[e].state = .ready ∧ c.entries[e].count = 0) := by
  have first : cacheEntries.find? (fun i => decide (c.entries[i].state = .free)) = none :=
    List.find?_eq_none.mpr fun i _ => by simpa using held i
  rw [Cache.choose, first]
  rfl

/-! ### The lookup (R69 to R71) -/

theorem lookup_hit {n : Nat} {e : Fin 8} (current : c.current n = some e) : c.lookup n =
    ((c.modEntry e fun r => { r with count := r.count + 1 }).touch e,
      if c.entries[e].state = .ready then .ready e c.entries[e].version else .fetching e c.entries[e].version) := by
  rw [Cache.lookup, current]

theorem beginFetch_version (c : Cache) (e : Fin 8) (n count : Nat) :
    (c.beginFetch e n count).entries[e].version = (c.entries[e].version + 1) % 65536 := by
  simp [Cache.beginFetch, Cache.touch, Cache.modEntry, Bank.modify, CacheEntry.begun]

theorem lookup_fetches {n : Nat} {e : Fin 8} (miss : c.current n = none) (chosen : c.choose = some e) :
    c.lookup n = (c.beginFetch e n 1, .fetching e ((c.entries[e].version + 1) % 65536)) := by
  rw [Cache.lookup, miss, chosen, ← beginFetch_version c e n 1]

theorem lookup_waits {n : Nat} (miss : c.current n = none) (full : c.choose = none) : c.lookup n = (c, .waitingEntry) := by
  rw [Cache.lookup, miss, full]

end Cache

/-- A lookup that finds or begins an entry tells the staged order so (R59). -/
theorem lookupStaged_answered {n : Nat} {b : Blocks} {c : Cache} {a : Answer} (lookup : b.cache.lookup n = (c, a))
    (entry : a ≠ .waitingEntry) : lookupStaged n b = tellStaged a (b.setCache c) := by
  rw [lookupStaged, lookup]
  cases a with
  | waitingEntry => exact absurd rfl entry
  | ready e v | fetching e v => rfl

/-- A lookup that finds no entry waits (R71). -/
theorem lookupStaged_waits {n : Nat} {b : Blocks} {c : Cache} (lookup : b.cache.lookup n = (c, .waitingEntry)) :
    lookupStaged n b = raise .cacheFull 0 (tellStaged .waitingEntry (b.setCache { c with waiting := some n })) := by
  rw [lookupStaged, lookup]

/-- Settles O36: a lookup hits, fetches into the chosen entry or waits; and which entries those are. -/
theorem lookupHitsFetchesOrWaits : Obligations.LookupHitsFetchesOrWaits := by
  refine ⟨fun n b live => ⟨fun e current => ?_, fun e miss chosen => ?_, fun miss full => ?_⟩,
    fun c => ⟨fun n e => of_current_eq_some, fun n => of_current_eq_none, fun e => choose_free, fun held => ?_⟩⟩
  · rw [lookupStaged_answered (lookup_hit current) (by split <;> nofun)]
    refine ⟨rfl, rfl, ?_⟩
    by_cases ready : b.cache.entries[e].state = .ready
    · simp only [ready, if_true]
      rfl
    · simp only [ready, if_false]
      rfl
  · rw [lookupStaged_answered (lookup_fetches miss chosen) nofun]
    exact ⟨rfl, rfl, rfl⟩
  · rw [lookupStaged_waits (lookup_waits miss full)]
    refine ⟨raiseAt_cache .., ?_, raiseAt_plan ..⟩
    exact raiseAt_raised (b := tellStaged .waitingEntry (b.setCache _)) _ _ _ live
  · refine ⟨fun before e after order unused earlier => ?_, fun used => ?_⟩
    · rw [choose_used held, order, List.find?_append, List.find?_eq_none.mpr fun i mem => by simpa using earlier i mem,
        Option.none_or]
      exact List.find?_cons_of_pos (by exact decide_eq_true unused)
    · rw [choose_used held, List.find?_eq_none]
      exact fun i mem => by simpa using used i mem

end Sys2Proof.Machine
end

section
/-! A write into a setting record: the supersession of its entry, the restart of its fetch, and the fetch's failure (R61, R69,
R70, R74, R75). -/

namespace Sys2Proof.Machine

/-! ### The write handed to the cache (R64) -/

/-- The window table holds no window but ANCHOR unless the part is live (R174). -/
theorem live_of_window {x : Ctx} {b : Blocks} {a off : Nat} {win : Window} (place : windowOf x b a = (win, off))
    (anchor : win ≠ .anchor) (outside : win ≠ .outside) : b.live = true := by
  unfold windowOf at place
  split at place
  · cases place
    exact absurd rfl anchor
  · split at place
    · assumption
    · cases place
      exact absurd rfl outside

theorem settingsEffect_carries {s : State} {w : CarriedWord} {v : WriteWord} {off : Nat}
    (carries : CarriesWrite s w v .settings off) :
    settingsEffect s.ctx w (wordBlocks s w) = recordWritten s.ctx (off / 64) (wordBlocks s w) := by
  obtain ⟨_, _, _, _, place⟩ := carries
  have place' : w.place s.ctx (wordBlocks s w) = (.settings, off) := place
  rw [settingsEffect, place']

/-- A word of a setting record completes with what the cache does of it. -/
theorem settingsWrite_leaves {s : State} {w : CarriedWord} {v : WriteWord} {off : Nat}
    (carries : CarriesWrite s w v .settings off) (decision : Decision) {b : Blocks}
    (work : ButPath s.blk.path b (recordWritten s.ctx (off / 64) (wordBlocks s w))) :
    WordLeaves s w v b (completeWord .settings decision settingsEffect s) :=
  completeWord_leaves carries (by rw [settingsEffect_carries carries]; exact work)

section Written
variable {x : Ctx} {n : Nat} {b : Blocks}

theorem recordWritten_none (miss : b.cache.current n = none) : recordWritten x n b = b := by
  rw [recordWritten, miss]

variable {e : Fin 8} (current : b.cache.current n = some e)
include current

theorem recordWritten_ready (ready : b.cache.entries[e].state = .ready) : recordWritten x n b = supersede e b := by
  rw [recordWritten, current]
  exact if_pos ready

variable (fetching : b.cache.entries[e].state = .fetching)
include fetching

theorem recordWritten_restarts (few : b.cache.entries[e].restarts < 3) : recordWritten x n b = restartFetch e b := by
  rw [recordWritten, current]
  exact (if_neg (by rw [fetching]; nofun)).trans (if_pos few)

theorem recordWritten_fails (many : 3 ≤ b.cache.entries[e].restarts) :
    recordWritten x n b = fetchFailed x e .settingUnstable b := by
  rw [recordWritten, current]
  exact (if_neg (by rw [fetching]; nofun)).trans (if_neg (Nat.not_lt.mpr many))

end Written

/-! ### A fetch fails (R61, R69, R70, R74) -/

theorem failEntry_eq (e : Fin 8) (c : Cache) : c.failEntry e = { c with
    entries := c.entries.set e { c.entries[e] with state := .free, count := 0, restarts := 0, contents := none }
    fetchQueue := c.fetchQueue.filter (· ≠ e)
    words := if c.fetchQueue.head? = some e then [] else c.words
    useOrder := if 0 < c.entries[e].count then c.useOrder.filter (· ≠ e) ++ [e] else c.useOrder } := by
  unfold Cache.failEntry
  dsimp only
  split <;> rfl

/-- No reference of a segment, nor of a continuation owed, waits on the restore claim of an entry. -/
def Unclaimed (e : Fin 8) (t : Track) : Prop :=
  ∀ g ∈ t.segs, (∀ r, g.setting = some r → r.link ≠ .restoring e) ∧
    ∀ o r, g.contOwed = some o → o.setting = some r → r.link ≠ .restoring e

theorem map_mapLink {e : Fin 8} {r : Option SettingRef} (f : SettingRef → SettingRef)
    (unclaimed : ∀ r', r = some r' → r'.link ≠ .restoring e) : r.map (mapLink e f) = r := by
  cases r with
  | none => rfl
  | some r => exact congrArg some (if_neg (unclaimed r rfl))

/-- References that wait on no claim of the entry are left as they are. -/
theorem mapRefs_mapLink {e : Fin 8} {g : Segment} (f : SettingRef → SettingRef)
    (own : ∀ r, g.setting = some r → r.link ≠ .restoring e)
    (owed : ∀ o r, g.contOwed = some o → o.setting = some r → r.link ≠ .restoring e) : mapRefs (mapLink e f) g = g := by
  have cont : (g.contOwed.map fun c => { c with setting := c.setting.map (mapLink e f) }) = g.contOwed := by
    cases held : g.contOwed with
    | none => rfl
    | some c => rw [Option.map_some, map_mapLink f fun r => owed c r held]
  rw [mapRefs, map_mapLink f own, cont]

theorem loseRefs_unclaimed {e : Fin 8} {t : Track} (unclaimed : Unclaimed e t) : loseRefs e t = t := by
  have same : ∀ g ∈ t.segs, (mapRefs (mapLink e fun r => { r with link := .lost })
      (if restoresOn e g then modFlags (fun f => { f with cuesLost := true }) g else g)) = g := by
    intro g mem
    obtain ⟨own, owed⟩ := unclaimed g mem
    have off : restoresOn e g = false := by
      unfold restoresOn
      split
      · exact decide_eq_false (own _ (by assumption))
      · rfl
    rw [off]
    exact mapRefs_mapLink _ own owed
  have segs := (List.map_congr_left same).trans t.segs.map_id
  exact congrArg (fun l => { t with segs := l }) segs

theorem stagedOn_none {e : Fin 8} {p : Plan}
    (other : ∀ o, p.staged = some o → o.state ≠ .fetching ∨ o.ref.map (·.1) ≠ some e) : stagedOn e p = none := by
  rw [stagedOn, Option.filter_eq_none_iff]
  intro o staged
  have := other o staged
  simpa only [Bool.and_eq_true, decide_eq_true_eq, not_and_or] using this

theorem stagedOn_some {e : Fin 8} {p : Plan} {o : StagedOrder} (staged : p.staged = some o) (fetching : o.state = .fetching)
    (entry : o.ref.map (·.1) = some e) : stagedOn e p = some o := by
  rw [stagedOn, staged]
  simp [fetching, entry]

theorem resolveRejected_notWaiting {b : Blocks} (opened : ∀ q, b.track.boundary ≠ .waiting q) (x : Ctx) :
    resolveRejected x b = b := by
  unfold resolveRejected
  split
  · exact absurd (by assumption) (opened _)
  · rfl

/-- The blocks after the withdrawal and the end of a failed fetch, before its claimants hear of it. -/
def fetchEnded (e : Fin 8) (b : Blocks) : Blocks := (withdrawFetch e b).modCache (Cache.failEntry e)

theorem ButPath.fetchEnded {p : Path} {b b' : Blocks} (h : ButPath p b b') (e : Fin 8) :
    ButPath p (b.modCache (Cache.failEntry e)) (Machine.fetchEnded e b') := (h.withdrawFetch e).modCache _

section Failed
variable {x : Ctx} {e : Fin 8} {reason : RejectReason} {b : Blocks}

/-- The end of a fetch leaves the track, the plan reader, and a lookup that waits. -/
theorem fetchEnded_others : (fetchEnded e b).track = b.track ∧ (fetchEnded e b).plan = b.plan ∧
    (fetchEnded e b).cache.waiting = b.cache.waiting := by
  obtain ⟨q, ended, _⟩ := (ButPath.refl b).fetchEnded e
  rw [ended]
  refine ⟨rfl, rfl, ?_⟩
  rw [Blocks.setPath_cache, Blocks.modCache_cache, failEntry_eq]

variable (unclaimed : Unclaimed e b.track)
include unclaimed

theorem fetchEnded_loseRefs : (fetchEnded e b).modTrack (loseRefs e) = fetchEnded e b := by
  obtain ⟨track, _⟩ := fetchEnded_others (e := e) (b := b)
  rw [Blocks.modTrack, loseRefs_unclaimed (track ▸ unclaimed)]
  rfl

variable (idle : b.cache.waiting = none)
include idle

/-- A failed fetch that no claimant waits on. -/
theorem fetchFailed_unstaged (unstaged : stagedOn e b.plan = none) : fetchFailed x e reason b = fetchEnded e b := by
  obtain ⟨_, plan, waiting⟩ := fetchEnded_others (e := e) (b := b)
  have failed : fetchFailed x e reason b = retryLookup (fetchEnded e b) := by
    unfold fetchFailed
    dsimp only
    rw [← fetchEnded, fetchEnded_loseRefs unclaimed, plan, unstaged]
  rw [failed, retryLookup_idle (waiting.trans idle)]

/-- A failed fetch that the staged order alone claims, no boundary waiting for it. -/
theorem fetchFailed_staged {o : StagedOrder} (staged : stagedOn e b.plan = some o)
    (opened : ∀ q, b.track.boundary ≠ .waiting q) : fetchFailed x e reason b =
      rejectOrder o.orderId o.slot reason ((fetchEnded e b).modPlan releaseStaged) := by
  obtain ⟨track, plan, waiting⟩ := fetchEnded_others (e := e) (b := b)
  have rejected := rejectOrder_rejected o.orderId o.slot reason ((fetchEnded e b).modPlan releaseStaged)
  have failed : fetchFailed x e reason b = retryLookup (rejectStaged x reason o (fetchEnded e b)) := by
    unfold fetchFailed
    dsimp only
    rw [← fetchEnded, fetchEnded_loseRefs unclaimed, plan, staged]
  rw [failed, rejectStaged, resolveRejected_notWaiting, retryLookup_idle]
  · rw [rejected.cache]
    exact waiting.trans idle
  · rw [rejected.track]
    exact fun q => track ▸ opened q

end Failed

/-- Settles O38: the write supersedes, restarts, fails or misses, by the current entry of its record. -/
theorem settingsWritesReachTheCache : Obligations.SettingsWritesReachTheCache := by
  intro s w v off decision carries c
  obtain ⟨carried, _, _, _, place⟩ := id carries
  have blocks := wordBlocks_butPath carries
  refine ⟨fun e current ready => ⟨_, rfl, ?_⟩, fun e current fetching few => ⟨_, rfl, ?_⟩,
    fun e current fetching many idle unclaimed => ⟨_, rfl, fun other => ?_, fun o staged state entry opened => ?_⟩,
    fun miss => ⟨_, rfl, ?_⟩⟩
  · refine settingsWrite_leaves carries decision ?_
    rw [recordWritten_ready (b := wordBlocks s w) current ready]
    exact blocks.modCache _
  · refine settingsWrite_leaves carries decision ?_
    rw [recordWritten_restarts (b := wordBlocks s w) current fetching few]
    exact (blocks.withdrawFetch e).modCache _
  · refine settingsWrite_leaves carries decision ?_
    rw [recordWritten_fails (b := wordBlocks s w) current fetching many,
      fetchFailed_unstaged (b := wordBlocks s w) unclaimed idle (stagedOn_none other), ← failEntry_eq]
    exact blocks.fetchEnded e
  · obtain ⟨follows, _⟩ := completeWord_spec (decision := decision) (effect := settingsEffect) carried
      (wordClass_of_carries carries)
    rw [carryWord_of_carries carries, settingsEffect_carries carries,
      recordWritten_fails (b := wordBlocks s w) current fetching many,
      fetchFailed_staged (b := wordBlocks s w) unclaimed idle (stagedOn_some staged state entry) opened] at follows
    obtain ⟨q, ended, _⟩ := blocks.fetchEnded e
    rw [ended] at follows
    have live : s.blk.live = true := live_of_window place nofun nofun
    obtain ⟨plan, latched, track, cache, rejections, queue⟩ := rejected_of_follows follows
      (b := ((s.blk.modCache (Cache.failEntry e)).setPath q).modPlan releaseStaged) live (rejectOrder_rejected ..)
    obtain ⟨_, _, mem, _⟩ := follows
    exact ⟨mem, cache.trans (failEntry_eq e c), track, plan, latched, rejections, queue⟩
  · refine settingsWrite_leaves carries decision ?_
    rw [recordWritten_none (b := wordBlocks s w) miss]
    exact blocks

end Sys2Proof.Machine
end

section
/-! The end of a fetch: what its claimants do leaves the setting cache, so its entry is READY or FREE (R67, R73). -/

namespace Sys2Proof.Machine

/-! ### The claimants leave the setting cache (R31, R61, R73, R79) -/

theorem admitStarved_cache (x : Ctx) (advance : Bool) (g : Segment) (p : Nat) (b : Blocks) :
    (admitStarved x advance g p b).cache = b.cache := by
  have succeeded : (succeed x advance g (Segment.blank p) b).cache = b.cache := (succeed_web x advance g _ b).cache
  unfold admitStarved starvedCause
  split <;> exact (raiseAt_cache ..).trans succeeded

/-- A WAITING boundary that admits its staged order leaves the cache: the reference passes to the segment (R28). -/
theorem resolveReady_cache (x : Ctx) (b : Blocks) : (resolveReady x b).cache = b.cache := by
  unfold resolveReady
  split
  · split
    · exact (succeed_web ..).cache
    · rfl
  · rfl

theorem resolveRejected_cache (x : Ctx) (b : Blocks) : (resolveRejected x b).cache = b.cache := by
  unfold resolveRejected
  split
  · exact admitStarved_cache ..
  · rfl

theorem rejectStaged_cache (x : Ctx) (reason : RejectReason) (o : StagedOrder) (b : Blocks) :
    (rejectStaged x reason o b).cache = b.cache :=
  (resolveRejected_cache ..).trans (rejectOrder_rejected ..).cache

theorem handReady_cache (x : Ctx) (e : Fin 8) (b : Blocks) : (handReady x e b).cache = b.cache := by
  have rebuilt (l : List Nat) (c : Blocks) : (l.foldl (fun b q => match b.track.find q with
      | some g => rebuildBatch x b g
      | none => b) c).cache = c.cache := by
    refine (foldl_web (fun b q work => ?_) l (.refl c)).cache
    split
    · exact rebuildBatch_web work x
    · exact work
  unfold handReady
  dsimp only
  rw [(evaluateWants_web (.refl _) x).cache]
  split
  · exact (resolveReady_cache ..).trans (rebuilt ..)
  · exact rebuilt ..

/-! ### The fetch's end with no lookup waiting (R73) -/

/-- A completed fetch leaves the order of fetches, and its entry is READY with the decoded setting. -/
def readyEntry (e : Fin 8) (v : Setting) (c : Cache) : Cache :=
  (c.endFetch e).modEntry e fun r => { r with state := .ready, restarts := 0, contents := some v }

section Ended
variable {x : Ctx} {e : Fin 8} {b : Blocks} (idle : b.cache.waiting = none)
include idle

theorem fetchReady_cache (v : Setting) : (fetchReady x e v b).cache = readyEntry e v b.cache := by
  have handed := handReady_cache x e (b.modCache (readyEntry e v))
  have quiet : (handReady x e (b.modCache (readyEntry e v))).cache.waiting = none := by rw [handed]; exact idle
  unfold fetchReady
  dsimp only
  split
  · exact (congrArg Blocks.cache (retryLookup_idle quiet)).trans handed
  · exact handed

theorem fetchFailed_cache (reason : RejectReason) : (fetchFailed x e reason b).cache = b.cache.failEntry e := by
  have ended : (fetchEnded e b).cache = b.cache.failEntry e := by
    obtain ⟨q, eq, _⟩ := (ButPath.refl b).fetchEnded e
    rw [eq]
    rfl
  have quiet : (b.cache.failEntry e).waiting = none := by rw [failEntry_eq]; exact idle
  have heard (c : Blocks) (same : c.cache = b.cache.failEntry e) : (retryLookup c).cache = b.cache.failEntry e := by
    rw [retryLookup_idle (by rw [same]; exact quiet), same]
  unfold fetchFailed
  refine heard _ ?_
  split
  · exact (rejectStaged_cache ..).trans ended
  · exact ended

end Ended

/-- The fetch of an entry has ended: it has left the order of fetches with its words, and no other entry has changed. -/
structure FetchLeft (e : Fin 8) (c c' : Cache) : Prop where
  fetchQueue : c'.fetchQueue = c.fetchQueue.filter (· ≠ e)
  words : c'.words = if c.fetchQueue.head? = some e then [] else c.words
  others : ∀ i : Fin 8, i ≠ e → c'.entries[i] = c.entries[i]

theorem set_other {α : Type} {n : Nat} (v : Bank α n) (a : α) {i j : Fin n} (other : j ≠ i) : (v.set i a)[j] = v[j] :=
  Vector.getElem_set_ne _ _ fun same => other (Fin.ext same.symm)

theorem readyEntry_left (e : Fin 8) (v : Setting) (c : Cache) : FetchLeft e c (readyEntry e v c) :=
  ⟨rfl, rfl, fun _ => set_other _ _⟩

theorem failEntry_left (e : Fin 8) (c : Cache) : FetchLeft e c (c.failEntry e) := by
  rw [failEntry_eq]
  exact ⟨rfl, rfl, fun _ => set_other _ _⟩

/-- The first fetch's end takes its entry off the head of the order, and its words are discarded. -/
theorem FetchLeft.first {e : Fin 8} {rest : List (Fin 8)} {c c' : Cache} (left : FetchLeft e c c')
    (queue : c.fetchQueue = e :: rest) (once : e ∉ rest) : c'.fetchQueue = rest ∧ c'.words = [] := by
  rw [left.fetchQueue, left.words, queue]
  refine ⟨?_, if_pos rfl⟩
  rw [List.filter_cons_of_neg (by simp), List.filter_eq_self]
  exact fun i mem => decide_eq_true fun same => once (same ▸ mem)

/-! ### A burst returns (R67, R73) -/

theorem readBy_length (s : State) (a : Access) : (readBy s a).length = a.count := by
  have counts (n : Nat) : ∀ k, (s.mem.readWords k n).length = n := by
    induction n with
    | zero => exact fun _ => rfl
    | succ n ih => exact fun k => congrArg (· + 1) (ih (k + 1))
  exact counts ..

section Burst
variable {x : Ctx} {ws : List Word} {b : Blocks} {e : Fin 8} {rest : List (Fin 8)}
  (queue : b.cache.fetchQueue = e :: rest)
include queue

theorem fetchBurst_kept (more : (b.cache.words ++ ws).length < 64) :
    fetchBurst x ws b = b.modCache fun c => { c with words := c.words ++ ws } := by
  rw [fetchBurst, queue]
  exact if_pos more

theorem fetchBurst_last (last : 64 ≤ (b.cache.words ++ ws).length) :
    fetchBurst x ws b = fetchDone x e (b.cache.words ++ ws) b := by
  rw [fetchBurst, queue]
  exact if_neg (Nat.not_lt.mpr last)

end Burst

section Judged
variable {x : Ctx} {e : Fin 8} {ws : List Word} {b : Blocks} (idle : b.cache.waiting = none)
include idle

theorem fetchDone_valid {v : Setting} (judged : validateSetting x.cfg.screenCount x.cfg.zoneCount b.stations.station
    b.cache.entries[e].number ws = .ok v) : (fetchDone x e ws b).cache = readyEntry e v b.cache := by
  rw [fetchDone, judged]
  exact fetchReady_cache idle v

theorem fetchDone_invalid {d : SettingDetail × Option Nat} (judged : validateSetting x.cfg.screenCount x.cfg.zoneCount
    b.stations.station b.cache.entries[e].number ws = .error d) : (fetchDone x e ws b).cache =
      (recordSettingFault b.cache.entries[e].number d b).cache.failEntry e := by
  rw [fetchDone, judged]
  exact fetchFailed_cache (b := recordSettingFault b.cache.entries[e].number d b) idle .settingBad

theorem fetchDone_left : FetchLeft e b.cache (fetchDone x e ws b).cache := by
  cases judged : validateSetting x.cfg.screenCount x.cfg.zoneCount b.stations.station b.cache.entries[e].number ws with
  | ok v =>
    rw [fetchDone_valid idle judged]
    exact readyEntry_left ..
  | error d =>
    rw [fetchDone_invalid idle judged]
    obtain ⟨fetchQueue, words, others⟩ := failEntry_left e (recordSettingFault b.cache.entries[e].number d b).cache
    exact ⟨fetchQueue, words, others⟩

end Judged

/-- Settles O37: a burst before the last adds its words, and the last one leaves its entry READY or FREE. -/
theorem fetchBurstsEndReadyOrFree : Obligations.FetchBurstsEndReadyOrFree := by
  refine ⟨fun s a decision e rest carries kind queue more => ⟨_, rfl, ?_⟩,
    fun s a decision e rest carries kind queue once idle last => ?_⟩
  · refine completeAccess_leaves carries (by simp [kind]) ?_
    rw [fetchBurst_kept (b := freePort s.blk) queue (by rw [List.length_append, readBy_length]; exact more)]
    exact (freePort_butPath s).modCache _
  · intro n ws judged
    refine ⟨_, rfl, ?_⟩
    obtain ⟨follows, _⟩ := completeAccess_spec (kinds := [.settingRead]) (decision := decision) (f := fetchBurst) carries
      (by simp [kind])
    obtain ⟨_, _, mem, _, _, _, cache, _⟩ := follows
    have done : fetchBurst s.ctx (readBy s a) (freePort s.blk) = fetchDone s.ctx e ws (freePort s.blk) :=
      fetchBurst_last (b := freePort s.blk) queue (by rw [List.length_append, readBy_length]; exact last)
    replace cache := cache.trans (congrArg Blocks.cache done)
    have left : FetchLeft e s.blk.cache (fetchDone s.ctx e ws (freePort s.blk)).cache :=
      fetchDone_left (b := freePort s.blk) idle
    obtain ⟨fetchQueue, words⟩ := left.first queue once
    rw [cache]
    refine ⟨mem, fetchQueue, words, left.others, fun v valid => ?_, fun d c invalid => ?_⟩
    · rw [fetchDone_valid (b := freePort s.blk) idle valid]
      exact Vector.getElem_set_self _
    · rw [fetchDone_invalid (b := freePort s.blk) idle invalid, failEntry_eq]
      refine ⟨?_, ?_, rfl, rfl⟩ <;> simp

end Sys2Proof.Machine
end

section
/-! Work that leaves the cue queue as it is: the oven's, the stations', the field line's, the host port's, the setting
cache's and the report unit's. -/

namespace Sys2Proof.Machine

theorem foldl_queue {ι : Type} {f : Blocks → ι → Blocks} (hf : ∀ b i, (f b i).cues.queue = b.cues.queue)
    (l : List ι) (b : Blocks) : (l.foldl f b).cues.queue = b.cues.queue := by
  induction l generalizing b with
  | nil => rfl
  | cons i l ih => rw [List.foldl_cons, ih, hf]

theorem ite_cues {p : Prop} [Decidable p] {a b c : Blocks} (hb : b.cues = a.cues) (hc : c.cues = a.cues) :
    (if p then b else c).cues = a.cues := by
  split
  · exact hb
  · exact hc

section Unqueued
variable (x : Ctx) (b : Blocks)

@[simp] theorem raise_cues (k : CauseKind) (source : Nat) : (raise k source b).cues = b.cues := raiseAt_cues ..

@[simp] theorem trigger_cues : (trigger x b).cues = b.cues := by
  obtain ⟨_, _, _, e⟩ := trigger_restart x b
  rw [e]
  rfl

theorem restartAdvance_cues : (restartAdvance x b).cues = b.cues := ite_cues (trigger_cues ..) rfl

theorem markMoved_cues : (markMoved b).cues = b.cues := by
  rw [markMoved_eq]
  rfl

/-! ### The screen stations -/

@[simp] theorem modStation_cues (k : Fin 16) (f : Station → Station) : (modStation k f b).cues = b.cues := rfl

@[simp] theorem evaluateWant_cues (k : Fin 16) : (evaluateWant x b k).cues = b.cues := by
  rw [evaluateWant_eq]
  rfl

@[simp] theorem liftUnexpected_cues (k : Fin 16) : (liftUnexpected x k b).cues = b.cues := by simp [liftUnexpected]

@[simp] theorem liftReport_cues (k : Fin 16) (r : LiftPosition) : (liftReport x k r b).cues = b.cues := by
  unfold liftReport
  dsimp only
  split
  case h_7 => exact ite_cues (evaluateWant_cues ..) rfl
  all_goals simp

theorem liftExpiry_cues (k : Fin 16) : (liftExpiry x k b).cues = b.cues := by
  unfold liftExpiry
  split <;> simp

@[simp] theorem stationLost_cues (k : Fin 16) : (stationLost x k b).cues = b.cues := by simp [stationLost]

@[simp] theorem refreshStation_cues (k : Fin 16) : (refreshStation x b k).cues = b.cues :=
  (refreshStation_refreshed x b k).keeps.cues

@[simp] theorem refreshBehind_cues (p : Nat) : (refreshBehind x p b).cues = b.cues :=
  (refreshBehind_refreshed x p b).keeps.cues

@[simp] theorem seamHeadTest_cues (k : Fin 16) : (seamHeadTest x b k).cues = b.cues := by
  unfold seamHeadTest
  split
  · rfl
  · exact ite_cues rfl (raise_cues ..)

@[simp] theorem accountUnit_cues (k : Fin 16) : (accountUnit x b k).cues = b.cues := ite_cues rfl rfl

@[simp] theorem repeatBoundary_cues (k : Fin 16) : (repeatBoundary x b k).cues = b.cues :=
  (repeatBoundary_returnKeeps x b k).cues

theorem stationAdvance_cues (k : Fin 16) : (stationAdvance x b k).cues = b.cues := by simp [stationAdvance]

@[simp] theorem registration_cues (k : Fin 16) (error : Int) : (registration k error b).cues = b.cues := by
  refine ite_cues ?_ rfl
  split <;> rfl

@[simp] theorem stationReply_cues (k : Fin 16) (r : LiftPosition) (error : Int) :
    (stationReply x k r error b).cues = b.cues := by simp [stationReply]

@[simp] theorem applyImage_cues (off : Nat) (w : WriteWord) : (applyImage off w b).cues = b.cues := by
  unfold applyImage
  split <;> rfl

@[simp] theorem refuseMount_cues (detail : MountDetail) (source : Nat) : (refuseMount detail source b).cues = b.cues := by
  simp [refuseMount]

@[simp] theorem takeTrim_cues (k : Fin 16) (w : Word) : (takeTrim k w b).cues = b.cues :=
  ite_cues (refuseMount_cues ..) (ite_cues (refuseMount_cues ..) rfl)

/-! ### The oven unit -/

theorem growProbe_queue (k : Nat) : (growProbe x b k).cues.queue = b.cues.queue := by
  unfold growProbe
  split
  · rfl
  · exact ite_queue (createProbe_queue ..) rfl

theorem ovenAdmitted_queue (g : Segment) : (ovenAdmitted x g b).cues.queue = b.cues.queue :=
  ite_queue (createProbe_queue ..) rfl

theorem ovenAdvance_queue : (ovenAdvance x b).cues.queue = b.cues.queue := by
  have zones : (refreshZones x b).cues.queue = b.cues.queue :=
    foldl_queue (by exact fun b z => congrArg Cues.queue (refreshZone_refreshed x b z).keeps.cues) _ b
  have probes (c : Blocks) : (placeProbes x c).cues.queue = c.cues.queue :=
    foldl_queue (by exact fun _ _ => placeProbe_queue ..) _ c
  exact (foldl_queue (growProbe_queue x) _ _).trans ((probes _).trans zones)

theorem enterVent_queue (c : Anchor) : (enterVent c b).cues.queue = b.cues.queue := by
  simp only [enterVent, Blocks.modOven_cues, raise_cues]
  exact foldl_queue (by exact fun _ _ => giveVerdict_queue ..) _ _

theorem dwellTick_queue : (dwellTick x b).cues.queue = b.cues.queue :=
  ite_queue (ite_queue (congrArg Cues.queue (raise_cues ..)) (ite_queue (enterVent_queue ..) rfl)) rfl

theorem accountingTick_queue : (accountingTick x b).cues.queue = b.cues.queue := dwellTick_queue x (creditProbes b)

theorem restoreProbes_queue : (restoreProbes x b).cues.queue = b.cues.queue :=
  foldl_queue (by exact fun _ _ => placeProbe_queue ..) _ b

theorem placeStations_queue : (placeStations x b).cues.queue = b.cues.queue := foldl_queue (by exact fun _ _ => rfl) _ b

/-! ### The field line -/

@[simp] theorem startCycle_cues : (startCycle x b).cues = b.cues := by
  unfold startCycle
  dsimp only
  split <;> rfl

@[simp] theorem endExchange_cues (m : Fin 24) (elapsed : Nat) : (endExchange x m elapsed b).cues = b.cues := by
  unfold endExchange
  dsimp only
  split
  · rfl
  · exact ite_cues (startCycle_cues ..) rfl

theorem cycleExpiry_cues : (cycleExpiry x b).cues = b.cues := by
  unfold cycleExpiry
  dsimp only
  split
  · exact startCycle_cues ..
  · rfl

@[simp] theorem handLoss_cues (m : Fin 24) : (handLoss x m b).cues = b.cues := by
  unfold handLoss
  split <;> simp

@[simp] theorem countMiss_cues (m : Fin 24) (r : MissReason) : (countMiss x m r b).cues = b.cues :=
  ite_cues (ite_cues (handLoss_cues ..) rfl) rfl

@[simp] theorem takeFault_cues (m : Fin 24) (fault : Bool) : (takeFault m fault b).cues = b.cues :=
  ite_cues (raise_cues ..) rfl

@[simp] theorem takeItem_cues (m : Fin 24) (selector : Bool) (value : Nat) :
    (takeItem m selector value b).cues = b.cues := ite_cues rfl (ite_cues (raise_cues ..) rfl)

@[simp] theorem handReply_cues (m : Fin 24) (r : GoodReply) : (handReply x m r b).cues = b.cues := by
  unfold handReply
  split
  · split
    · exact ite_cues (stationReply_cues ..) rfl
    · rfl
  · split
    · exact ite_cues rfl rfl
    · rfl

@[simp] theorem goodReply_cues (m : Fin 24) (selector : Bool) (r : GoodReply) (item : Nat) :
    (goodReply x m selector r item b).cues = b.cues := by
  refine ite_cues ?_ ?_ <;> simp [modModule]

theorem judgeFrame_cues (e : Exchange) (bytes : List Byte) (framing : Bool) (elapsed : Nat) :
    (judgeFrame x e bytes framing elapsed b).cues = b.cues := by
  unfold judgeFrame
  dsimp only
  split <;> simp

theorem missExchange_cues (e : Exchange) (r : MissReason) (elapsed : Nat) :
    (missExchange x e r elapsed b).cues = b.cues := by simp [missExchange]

/-! ### The setting cache and the report unit -/

@[simp] theorem lookupStaged_cues (n : Nat) : (lookupStaged n b).cues = b.cues := by
  unfold lookupStaged
  split
  · simp [tellStaged]
  · rfl

@[simp] theorem retryLookup_cues : (retryLookup b).cues = b.cues := by
  unfold retryLookup
  split
  · rfl
  · split <;> rfl

@[simp] theorem releaseRef_cues (r : Option SettingRef) : (releaseRef r b).cues = b.cues := (releaseRef_off r b).cues

@[simp] theorem claimOwed_cues (o : Option ContOwed) : (claimOwed o b).cues = b.cues := by
  rw [claimOwed_eq]
  rfl

theorem supersedeUnmounted_queue (gone : Fin 16 → Bool) : (supersedeUnmounted gone b).cues.queue = b.cues.queue :=
  foldl_queue (by exact fun _ _ => rfl) _ b

@[simp] theorem withdrawFetch_cues (e : Fin 8) : (withdrawFetch e b).cues = b.cues := ite_cues rfl rfl

theorem restoreClaim_queue (n : Nat) : (restoreClaim b n).cues.queue = b.cues.queue := by
  unfold restoreClaim
  dsimp only
  split
  · exact ite_queue (congrArg Cues.queue (lookupStaged_cues ..)) rfl
  · exact ite_queue rfl rfl

theorem restoreClaims_queue : (restoreClaims b).cues.queue = b.cues.queue := by
  have claimed := foldl_queue restoreClaim_queue (restoredNumbers b.track.segs) b
  unfold restoreClaims
  dsimp only
  split
  · refine ite_queue claimed ?_
    rw [lookupStaged_cues, claimed]
  · exact claimed

@[simp] theorem rejectOrder_cues (id : BitVec 16) (slot : Nat) (reason : RejectReason) :
    (rejectOrder id slot reason b).cues = b.cues := by
  unfold rejectOrder reportRejected queueRecord
  simp only [raise_cues, Blocks.modPlan_cues]
  exact ite_cues (ite_cues (raise_cues ..) rfl) (raise_cues ..)

/-! ### The plan reader and the host port -/

theorem freeingDone_cues : (freeingDone x b).cues = b.cues := by
  refine ite_cues ?_ rfl
  dsimp only
  split
  · exact ite_cues (lookupStaged_cues ..) rfl
  · exact rejectOrder_cues ..
  · rfl

theorem planEffect_cues (w : CarriedWord) : (planEffect x w b).cues = b.cues := by
  unfold planEffect
  split
  · exact raise_cues ..
  · exact ite_cues (ite_cues (raise_cues ..) (ite_cues rfl (raise_cues ..))) rfl
  · rfl

theorem takeAccess_cues (y : HostAccess) : (takeAccess x y b).cues = b.cues := by
  have frozen : (beginFreeze b).cues = b.cues := ite_cues rfl (ite_cues rfl rfl)
  have judged : (judgeFreeze x y b).cues = b.cues := ite_cues frozen (ite_cues rfl rfl)
  exact ite_cues judged judged

theorem nextWord_cues (w : CarriedWord) : (nextWord x w b).cues = b.cues := ite_cues rfl rfl

@[simp] theorem mountEffect_cues (w : CarriedWord) : (mountEffect x w b).cues = b.cues := by
  unfold mountEffect
  split
  · exact applyImage_cues ..
  · rfl

theorem trimEffect_cues (w : CarriedWord) : (trimEffect x w b).cues = b.cues := by
  unfold trimEffect
  split
  · simp
  · rfl

theorem remountEffect_queue (w : CarriedWord) : (remountEffect x w b).cues.queue = b.cues.queue := by
  unfold remountEffect judgeRemount
  split
  · split
    · simp
    · simp only [acceptRemount, evaluateWants_cues, supersedeUnmounted_queue]
      simp
  · rfl

theorem acknowledgeEffect_cues (w : CarriedWord) : (acknowledgeEffect x w b).cues = b.cues := by
  unfold acknowledgeEffect
  split
  · rename_i v _
    obtain ⟨_, _, e, _⟩ := clearClaim_eq x v.value (b.modReport fun r => { r with acks := inc16 r.acks })
    rw [e]
    rfl
  · rfl

/-! ### The completions of the report unit's and the restart unit's accesses -/

theorem recordDone_cues : (recordDone x b).cues = b.cues := by
  unfold recordDone fillStall
  split
  · rfl
  · split <;> rfl

theorem mapRead_cues (ws : List Word) : (mapRead x ws b).cues = b.cues := by
  unfold mapRead
  split
  · rfl
  · exact ite_cues rfl rfl

theorem anchorRead_cues (ws : List Word) : (anchorRead x ws b).cues = b.cues := by
  unfold anchorRead
  split
  · rfl
  · refine ite_cues rfl ?_
    split <;> rfl

end Unqueued

end Sys2Proof.Machine
end

section
/-! The cue queue in due order (R82, R85, R87): what an insertion and a firing make of it, and every step keeps it beyond
H. -/

namespace Sys2Proof.Machine

/-! ### Queues in due order -/

/-- At most 64 cues, in due order (R82, R85). -/
structure DueOrdered (q : List PendingCue) : Prop where
  places : q.length ≤ 64
  order : q.Pairwise fun a b => a.due ≤ b.due

/-- A queue in due order, each cue beyond a position. -/
structure QueuedBeyond (h : Nat) (q : List PendingCue) : Prop extends DueOrdered q where
  beyond : ∀ p ∈ q, h < p.due

theorem QueuedBeyond.nil (h : Nat) : QueuedBeyond h [] := ⟨⟨Nat.zero_le 64, .nil⟩, by simp⟩

/-- A queue beyond a position is beyond every lower one. -/
theorem QueuedBeyond.lower {low h : Nat} {q : List PendingCue} (k : QueuedBeyond h q) (le : low ≤ h) :
    QueuedBeyond low q :=
  ⟨k.toDueOrdered, fun p hp => le.trans_lt (k.beyond p hp)⟩

/-- Cues may leave a queue. -/
theorem QueuedBeyond.sublist {h : Nat} {q q' : List PendingCue} (k : QueuedBeyond h q) (sub : q'.Sublist q) :
    QueuedBeyond h q' :=
  ⟨⟨sub.length_le.trans k.places, k.order.sublist sub⟩, fun p hp => k.beyond p (sub.mem hp)⟩

/-- In due order, the cues due at or below a position stand before those due beyond it. -/
theorem takeWhile_dropWhile_due {l : List PendingCue} (order : l.Pairwise fun a b => a.due ≤ b.due) (h : Nat) :
    l.takeWhile (fun p => p.due ≤ h) = l.filter (fun p => p.due ≤ h) ∧
      l.dropWhile (fun p => p.due ≤ h) = l.filter fun p => h < p.due := by
  induction l with
  | nil => exact ⟨rfl, rfl⟩
  | cons p l ih =>
    obtain ⟨first, rest⟩ := List.pairwise_cons.mp order
    obtain ⟨taken, left⟩ := ih rest
    by_cases due : p.due ≤ h
    · simp [due, taken, left]
    · have later : ∀ e ∈ l, h < e.due := fun e he => (not_le.mp due).trans_le (first e he)
      have stay : l.filter (fun p => h < p.due) = l := List.filter_eq_self.mpr (by simpa using later)
      exact ⟨by simpa [due] using later, by simp [due, not_le.mp due, stay]⟩

theorem insertDue_length (p : PendingCue) (l : List PendingCue) : (insertDue p l).length = l.length + 1 := by
  have parts := congrArg List.length
    (List.takeWhile_append_dropWhile (p := fun e : PendingCue => decide (e.due ≤ p.due)) (l := l))
  simp only [List.length_append] at parts
  simp only [insertDue, List.length_append, List.length_singleton]
  omega

/-- A new cue takes its place in due order (R85). -/
theorem insertDue_order (p : PendingCue) {l : List PendingCue} (order : l.Pairwise fun a b => a.due ≤ b.due) :
    (insertDue p l).Pairwise fun a b => a.due ≤ b.due := by
  obtain ⟨before, behind⟩ := takeWhile_dropWhile_due order p.due
  rw [insertDue, before, behind, List.append_assoc, List.singleton_append, List.pairwise_append, List.pairwise_cons]
  refine ⟨order.filter _, ⟨fun e he => ?_, order.filter _⟩, fun e he e' he' => ?_⟩
  · simp only [List.mem_filter, decide_eq_true_eq] at he
    exact he.2.le
  · simp only [List.mem_filter, decide_eq_true_eq, List.mem_cons] at he he'
    rcases he' with rfl | ⟨_, later⟩
    · exact he.2
    · exact he.2.trans later.le

/-! ### Firing, insertion and cancellation -/

/-- The cues due at or below H leave a queue in due order. -/
theorem fireDue_beyond (x : Ctx) {b : Blocks} (h : DueOrdered b.cues.queue) :
    QueuedBeyond x.motion.h (fireDue x b).cues.queue := by
  have left : (fireDue x b).cues.queue = b.cues.queue.filter fun p => x.motion.h < p.due := by
    rw [fireDue_queue, (takeWhile_dropWhile_due h.order _).2]
  rw [left]
  exact ⟨⟨(List.length_filter_le ..).trans h.places, h.order.filter _⟩, by simp⟩

section Work
variable {x : Ctx} {low : Nat} (le : low ≤ x.motion.h) {b : Blocks} (h : QueuedBeyond low b.cues.queue)
include h

theorem cancelCues_beyond {test : PendingCue → Bool} : QueuedBeyond low (cancelCues test b).cues.queue :=
  h.sublist List.filter_sublist

include le

theorem insertCue_beyond {lateBelow edge q : Nat} {c : Cue} :
    QueuedBeyond low (insertCue x lateBelow edge q b c).cues.queue := by
  unfold insertCue
  dsimp only
  split
  · rename_i room
    exact (fireDue_beyond x ⟨(insertDue_length ..).trans_le room, insertDue_order _ h.order⟩).lower le
  · simpa using h

omit le h in
theorem foldl_beyond {ι : Type} {f : Blocks → ι → Blocks}
    (hf : ∀ b i, QueuedBeyond low b.cues.queue → QueuedBeyond low (f b i).cues.queue) (l : List ι) :
    ∀ {b : Blocks}, QueuedBeyond low b.cues.queue → QueuedBeyond low (l.foldl f b).cues.queue := by
  induction l with
  | nil => exact id
  | cons i l ih => exact fun h => ih (hf _ i h)

omit le h in
theorem ite_beyond {p : Prop} [Decidable p] {b c : Blocks} (hb : QueuedBeyond low b.cues.queue)
    (hc : QueuedBeyond low c.cues.queue) : QueuedBeyond low (if p then b else c).cues.queue := by
  split
  · exact hb
  · exact hc

theorem insertBatch_beyond {advance : Bool} {edge q : Nat} {cs : List Cue} :
    QueuedBeyond low (insertBatch x advance edge q cs b).cues.queue :=
  foldl_beyond (fun _ _ h => insertCue_beyond le h) _ h

theorem rebuildBatch_beyond {g : Segment} : QueuedBeyond low (rebuildBatch x b g).cues.queue := by
  refine foldl_beyond (fun b c h => ?_) _ h
  unfold rebuildListed
  split
  · exact ite_beyond (by exact h) (insertCue_beyond le h)
  · exact h

/-! ### The track unit -/

theorem handClosure_beyond {advance : Bool} {q : Nat} : QueuedBeyond low (handClosure x advance q b).cues.queue := by
  unfold handClosure
  split
  · exact h
  · split
    · exact h
    · refine ite_beyond ?_ h
      rw [ovenClosed_queue]
      exact insertBatch_beyond le h

theorem handAdmission_beyond {advance : Bool} : QueuedBeyond low (handAdmission x advance b).cues.queue := by
  unfold handAdmission
  split
  · exact h
  · refine ite_beyond ?_ h
    rw [ovenAdmitted_queue]
    exact ite_beyond (insertBatch_beyond le h) h

theorem succeed_beyond {advance : Bool} {g s : Segment} : QueuedBeyond low (succeed x advance g s b).cues.queue := by
  simp only [succeed, trigger_cues, evaluateMoved_cues, refreshBehind_cues]
  exact handAdmission_beyond le (handClosure_beyond le (by exact h))

theorem admitStarved_beyond {advance : Bool} {g : Segment} {p : Nat} :
    QueuedBeyond low (admitStarved x advance g p b).cues.queue := by
  have admitted := succeed_beyond le h (advance := advance) (g := g) (s := Segment.blank p)
  refine ite_beyond ?_ ?_
  · rw [raise_cues]
    exact admitted
  · rw [raise_cues]
    exact admitted

theorem takeBoundary_beyond {p : Nat} : QueuedBeyond low (takeBoundary x p b).cues.queue := by
  unfold takeBoundary
  split
  · exact h
  · refine ite_beyond ?_ ?_
    · refine ite_beyond (by exact h) ?_
      rw [raise_cues]
      exact h
    · split
      · exact succeed_beyond le (by exact h)
      · exact admitStarved_beyond le h
      · split
        · exact succeed_beyond le (by exact h)
        · exact succeed_beyond le (by exact h)
        · rw [refreshBehind_cues]
          exact h
        · exact h

omit le in
theorem shortenOwed_beyond {minOrder q : Nat} {c : ContOwed} {n : Int} :
    QueuedBeyond low (shortenOwed minOrder q c n b).cues.queue := by
  refine ite_beyond ?_ (by exact h)
  simpa [dropOwed] using h

theorem truncateAt_beyond {g : Segment} {e : PendingSeam} : QueuedBeyond low (truncateAt x g e b).cues.queue := by
  rw [truncateAt_eq]
  refine succeed_beyond le ?_
  rw [claimOwed_cues]
  exact ite_beyond (cancelCues_beyond (by exact h)) (by exact h)

theorem seamAtBoundary_beyond {g : Segment} {e : PendingSeam} : QueuedBeyond low (seamAtBoundary x g e b).cues.queue := by
  refine ite_beyond ?_ (succeed_beyond le (by exact h))
  split
  · exact shortenOwed_beyond (succeed_beyond le (by exact h))
  · exact succeed_beyond le (by exact h)

omit le in
theorem coverSeam_beyond {g : Segment} {e : PendingSeam} : QueuedBeyond low (coverSeam x g e b).cues.queue := by
  unfold coverSeam
  dsimp only
  split
  · exact shortenOwed_beyond (by exact h)
  · exact h

theorem meetSeam_beyond {g : Segment} {e : PendingSeam} : QueuedBeyond low (meetSeam x g e b).cues.queue := by
  refine ite_beyond (seamAtBoundary_beyond le h) (ite_beyond (coverSeam_beyond h) (ite_beyond (truncateAt_beyond le h) ?_))
  rw [absorbSeam, raise_cues]
  exact h

theorem resolveRejected_beyond : QueuedBeyond low (resolveRejected x b).cues.queue := by
  unfold resolveRejected
  split
  · exact admitStarved_beyond le h
  · exact h

theorem takeSeam_beyond {e : PendingSeam} : QueuedBeyond low (takeSeam x e b).cues.queue := by
  have resolved := resolveRejected_beyond le h
  rw [takeSeam_eq]
  split
  · rw [evaluateWants_cues]
    exact meetSeam_beyond le resolved
  · exact resolved

omit le in
theorem retire_beyond {g : Segment} : QueuedBeyond low (retire x b g).cues.queue := by
  rw [(retire_off x b g).cues, (handOn_handedOn x b g).cues]
  exact h.sublist List.filter_sublist

omit h in
theorem takeDue_beyond (n : Nat) : ∀ (tried : Bool) {b : Blocks}, QueuedBeyond low b.cues.queue →
    QueuedBeyond low (takeDue x n tried b).cues.queue := by
  induction n with
  | zero => exact fun _ _ h => h
  | succ n ih =>
    intro tried b h
    unfold takeDue
    split
    · exact ite_beyond (ih _ (takeSeam_beyond le h)) (ih _ (takeBoundary_beyond le h))
    · exact ih _ (takeSeam_beyond le h)
    · exact ih _ (takeBoundary_beyond le h)
    · exact h

theorem trackAdvance_beyond : QueuedBeyond low (trackAdvance x b).cues.queue := by
  refine takeDue_beyond le _ _ ?_
  have retired : QueuedBeyond low (retireAll x b).cues.queue := foldl_beyond (fun _ _ h => retire_beyond h) _ h
  unfold starvedCheck
  split
  · exact ite_beyond (by exact retired) retired
  · exact retired

theorem resolveReady_beyond : QueuedBeyond low (resolveReady x b).cues.queue := by
  unfold resolveReady
  split
  · exact ite_beyond (succeed_beyond le (by exact h)) h
  · exact h

omit le in
theorem activeEdge_beyond : QueuedBeyond low (activeEdge x b).cues.queue := by
  refine ite_beyond (by exact h) (ite_beyond ?_ ?_)
  · rw [evaluateWants_cues]
    exact h
  · rw [raise_cues]
    exact h

/-! ### The end of a fetch -/

theorem handReady_beyond {e : Fin 8} : QueuedBeyond low (handReady x e b).cues.queue := by
  have rebuilt (l : List Nat) {c : Blocks} (h : QueuedBeyond low c.cues.queue) :
      QueuedBeyond low (l.foldl (fun b q => match b.track.find q with
        | some g => rebuildBatch x b g
        | none => b) c).cues.queue := by
    refine foldl_beyond (fun b q h => ?_) l h
    split
    · exact rebuildBatch_beyond le h
    · exact h
  unfold handReady
  dsimp only
  rw [evaluateWants_cues]
  split
  · exact resolveReady_beyond le (by exact rebuilt _ h)
  · exact rebuilt _ h

theorem fetchReady_beyond {e : Fin 8} {t : Setting} : QueuedBeyond low (fetchReady x e t b).cues.queue := by
  unfold fetchReady
  dsimp only
  split
  · rw [retryLookup_cues]
    exact handReady_beyond le (by exact h)
  · exact handReady_beyond le (by exact h)

theorem fetchFailed_beyond {e : Fin 8} {reason : RejectReason} :
    QueuedBeyond low (fetchFailed x e reason b).cues.queue := by
  unfold fetchFailed
  simp only [retryLookup_cues]
  split
  · refine resolveRejected_beyond le ?_
    simpa using h
  · simpa using h

theorem fetchBurst_beyond {ws : List Word} : QueuedBeyond low (fetchBurst x ws b).cues.queue := by
  unfold fetchBurst
  split
  · exact h
  · refine ite_beyond (by exact h) ?_
    unfold fetchDone
    dsimp only
    split
    · exact fetchReady_beyond le h
    · exact fetchFailed_beyond le (by exact h)

theorem recordWritten_beyond {n : Nat} : QueuedBeyond low (recordWritten x n b).cues.queue := by
  unfold recordWritten
  split
  · exact h
  · refine ite_beyond (by exact h) (ite_beyond ?_ (fetchFailed_beyond le h))
    simpa [restartFetch] using h

/-! ### A unit event and its takers -/

theorem takeAdvance_beyond {entering : Bool} {t : Taker} : QueuedBeyond low (takeAdvance x entering b t).cues.queue := by
  cases t with
  | motion => exact ite_beyond (by exact h) h
  | track => exact trackAdvance_beyond le h
  | station k =>
    rw [takeAdvance, stationAdvance_cues]
    exact h
  | cues => exact (fireDue_beyond x h.toDueOrdered).lower le
  | oven =>
    rw [takeAdvance, ovenAdvance_queue]
    exact h
  | restart =>
    rw [takeAdvance, restartAdvance_cues]
    exact h

/-- Once the cue queue has taken an H advance, it lies beyond the new H: the takers before it leave it in due order, and
those after it fire at once what they insert at or below H. -/
theorem takeAdvances_beyond {entering : Bool} {l : List Taker} (named : Taker.cues ∈ l) :
    QueuedBeyond x.motion.h (l.foldl (takeAdvance x entering) b).cues.queue := by
  obtain ⟨before, after, rfl⟩ := List.append_of_mem named
  rw [List.foldl_append, List.foldl_cons]
  refine foldl_beyond (fun _ _ h => takeAdvance_beyond le_rfl h) after ?_
  exact fireDue_beyond x (foldl_beyond (fun _ _ h => takeAdvance_beyond le h) before h).toDueOrdered

end Work

/-- Every taker of an order takes a unit event (R6, log 8). -/
theorem mem_fullOrder {t : Taker} {order : List Taker} (named : t ∈ order ++ Taker.all) : t ∈ fullOrder order := by
  have joins (l : List Taker) : ∀ acc : List Taker, t ∈ acc ∨ t ∈ l →
      t ∈ l.foldl (fun l t => if l.contains t then l else l ++ [t]) acc := by
    induction l with
    | nil => exact fun acc h => h.resolve_right List.not_mem_nil
    | cons u l ih =>
      refine fun acc h => ih _ ?_
      rw [List.mem_cons] at h
      dsimp only
      split
      · rename_i held
        rcases h with h | rfl | h
        · exact .inl h
        · exact .inl (List.contains_iff_mem.mp held)
        · exact .inr h
      · rw [List.mem_append, List.mem_singleton]
        tauto
  exact joins _ [] (.inr named)

theorem cues_mem_fullOrder (order : List Taker) : Taker.cues ∈ fullOrder order :=
  mem_fullOrder (List.mem_append_right _ (by decide))

/-! ### Every command -/

/-- The cue queue of a state lies beyond its H, in due order. -/
def State.CuesBeyond (s : State) : Prop := QueuedBeyond s.motion.h s.blk.cues.queue

theorem State.CuesBeyond.of_same {s t : State} (h : s.CuesBeyond) (height : t.motion.h = s.motion.h)
    (queue : t.blk.cues.queue = s.blk.cues.queue) : t.CuesBeyond := by
  unfold State.CuesBeyond
  rw [height, queue]
  exact h

/-- A queue emptied lies beyond every position. -/
theorem State.CuesBeyond.of_empty {s : State} (queue : s.blk.cues.queue = []) : s.CuesBeyond := by
  unfold State.CuesBeyond
  rw [queue]
  exact .nil _

theorem decided_cuesBeyond {s : State} (h : s.CuesBeyond) (pre : Requests) (decision : Decision) :
    (s.decided pre decision).CuesBeyond :=
  h.of_same (by simp) (by simp [State.decided, State.settled])

theorem blockStep_cuesBeyond {f : Ctx → Blocks → Blocks} {s : State}
    (h : QueuedBeyond s.motion.h (f s.ctx s.blk).cues.queue) : (blockStep f s).CuesBeyond :=
  decided_cuesBeyond (s := s.setBlk (f s.ctx s.blk)) h ..

/-- A step of blocks that leaves the cue queue. -/
theorem blockStep_sameCues {f : Ctx → Blocks → Blocks} {s : State} (h : s.CuesBeyond)
    (same : (f s.ctx s.blk).cues.queue = s.blk.cues.queue) : (blockStep f s).CuesBeyond :=
  blockStep_cuesBeyond (by rw [same]; exact h)

theorem completeWord_cuesBeyond {c : WordClass} {decision : Decision} {effect : Ctx → CarriedWord → Blocks → Blocks}
    {s : State} (h : s.CuesBeyond) (keeps : ∀ w b, QueuedBeyond s.motion.h b.cues.queue →
      QueuedBeyond s.motion.h (effect s.ctx w b).cues.queue) : (completeWord c decision effect s).CuesBeyond := by
  unfold completeWord
  split
  · exact h
  · split
    · refine decided_cuesBeyond ?_ ..
      unfold State.CuesBeyond
      rw [State.setBlk_blk, nextWord_cues]
      exact keeps _ _ (ite_beyond h h)
    · exact h

/-- A word whose effect leaves the cue queue. -/
theorem completeWord_sameCues {c : WordClass} {decision : Decision} {effect : Ctx → CarriedWord → Blocks → Blocks}
    {s : State} (h : s.CuesBeyond) (same : ∀ w b, (effect s.ctx w b).cues.queue = b.cues.queue) :
    (completeWord c decision effect s).CuesBeyond :=
  completeWord_cuesBeyond h fun w b hb => by rw [same]; exact hb

theorem completeAccess_cuesBeyond {kinds : List AccessKind} {decision : Decision} {effect : List Word → State → State}
    {s : State} (h : s.CuesBeyond) (keeps : ∀ ws u, u.CuesBeyond → (effect ws u).CuesBeyond) :
    (completeAccess kinds decision effect s).CuesBeyond := by
  unfold completeAccess
  split
  · split
    · refine decided_cuesBeyond ?_ ..
      split
      · exact h
      · exact keeps _ _ h
    · exact h
  · exact h
  · exact h

/-- An access whose completion leaves the cue queue. -/
theorem onBlocks_sameCues {kinds : List AccessKind} {decision : Decision} {f : Ctx → List Word → Blocks → Blocks}
    {s : State} (h : s.CuesBeyond) (same : ∀ x ws b, (f x ws b).cues.queue = b.cues.queue) :
    (completeAccess kinds decision (onBlocks f) s).CuesBeyond :=
  completeAccess_cuesBeyond h fun ws u hu => hu.of_same rfl (same u.ctx ws u.blk)

/-! ### Unit events -/

/-- A return or a backward event, a discarded one too, leaves H and the cue queue (R4 to R8). -/
theorem handMove_queue {x : Ctx} {entering : Bool} {order : List Taker} {v : Move} (v_ne : v ≠ .advance) (b : Blocks) :
    (handMove x entering order v b).cues.queue = b.cues.queue := by
  cases v with
  | advance => exact absurd rfl v_ne
  | ret => exact congrArg Cues.queue (takeReturns_returnKeeps x entering _ b).cues
  | back => exact ite_queue (congrArg Cues.queue (raise_cues ..)) rfl
  | lostForward =>
    simp only [handMove, raise_cues]
    exact ite_queue rfl rfl
  | lostBackward => exact congrArg Cues.queue (raise_cues ..)

theorem applyMove_h {v : Move} (v_ne : v ≠ .advance) (m : Motion) : (applyMove v m).h = m.h := by
  cases v <;> first | rfl | exact absurd rfl v_ne

/-- An H advance raises H (R4). -/
theorem advance_raises_h {m : Motion} {d : Travel} (advance : moveOf m d = .advance) :
    m.h < (applyMove .advance m).h := by
  cases d with
  | fwd =>
    simp only [moveOf] at advance
    split at advance
    · cases advance
    · split at advance
      · rename_i below
        exact below
      · cases advance
  | back =>
    simp only [moveOf] at advance
    split at advance <;> cases advance

theorem unitEvent_cuesBeyond {s : State} (h : s.CuesBeyond) (order : List Taker) (d : Travel) :
    (unitEvent order d s).CuesBeyond := by
  have marked : QueuedBeyond s.motion.h (markMoved s.blk).cues.queue := by
    rw [markMoved_cues]
    exact h
  by_cases live : s.blk.live = true
  · rw [unitEvent_live live]
    unfold State.CuesBeyond
    dsimp only [State.setBlk_blk, State.setBlk_motion, State.setMotion_motion]
    by_cases advance : moveOf (eventMotion s.cfg.stopDetect d s.motion) d = .advance
    · rw [advance]
      exact takeAdvances_beyond (x := ⟨s.cfg, applyMove .advance (eventMotion s.cfg.stopDetect d s.motion)⟩)
        (advance_raises_h advance).le marked (cues_mem_fullOrder order)
    · rw [handMove_queue advance, applyMove_h advance]
      exact marked
  · rw [unitEvent_idle (by simpa using live)]
    exact marked

theorem pulse_cuesBeyond {s : State} (h : s.CuesBeyond) (order : List Taker) (d : Travel) :
    (pulse order d s).CuesBeyond := by
  unfold pulse
  dsimp only
  split
  · exact decided_cuesBeyond (unitEvent_cuesBeyond (by exact h) ..) ..
  · exact h

theorem encoderPulse_cuesBeyond {encA encB : Bool} {order : List Taker} {s t : State} (h : s.CuesBeyond)
    (ht : execEncoderPulse encA encB order s = .next t) : t.CuesBeyond := by
  unfold execEncoderPulse at ht
  dsimp only at ht
  split at ht <;> cases ht
  · exact h
  · exact pulse_cuesBeyond (by exact h) ..
  · exact pulse_cuesBeyond (by exact h) ..
  · exact h

/-! ### Arming results (R96) -/

theorem coldResult_queue (code : ResultCode) (a : Arming) (s : State) : (coldResult code a s).blk.cues.queue = [] := by
  simp only [coldResult, State.setBlk_blk, startCycle_cues]
  rfl

theorem warmResult_queue (d : SnapshotData) (a : Arming) (s : State) : (warmResult d a s).blk.cues.queue = [] := by
  have backlog (b : Blocks) : (raiseBacklog b).cues = b.cues := ite_cues (raise_cues ..) rfl
  rw [warmResult_eq]
  simp only [State.setBlk_blk, startCycle_cues]
  rw [restoreClaims_queue, backlog, restoreProbes_queue, placeStations_queue]
  rfl

theorem mountRead_cuesBeyond {s : State} (h : s.CuesBeyond) (ws : List Word) : (mountRead ws s).CuesBeyond := by
  unfold mountRead
  split
  · exact h
  · dsimp only
    split
    · exact h
    · unfold mountDone
      split
      · exact h
      · split
        · exact .of_empty (coldResult_queue ..)
        · split <;> exact h

theorem snapshotRead_cuesBeyond {s : State} (h : s.CuesBeyond) (ws : List Word) : (snapshotRead ws s).CuesBeyond := by
  unfold snapshotRead
  split
  · exact h
  · dsimp only
    split
    · exact h
    · split
      · exact h
      · split
        · exact .of_empty (warmResult_queue ..)
        · exact .of_empty (coldResult_queue ..)

/-- Every command keeps the cue queue beyond H, in due order. -/
theorem exec_cuesBeyond (c : Instr) {s t : State} (h : s.CuesBeyond) (ht : exec c s = .next t) : t.CuesBeyond := by
  cases c <;>
    simp only [exec, execSpeedIntervalExpiry, execMarkPulseExpiry, execStopDetectExpiry, execSeamEdge, execLiftTimerExpiry,
      execAccountingTimerExpiry, execCycleTimerExpiry, execExchangeQuietReached, execQuietWaitTimeout, execCommandFrameSent,
      execReplyFirstCharacter, execReplyTimerExpiry, execStallTimerExpiry, execStatusTimerExpiry] at ht
  case encoderPulse => exact encoderPulse_cuesBeyond h ht
  case speedIntervalExpiry | markPulseExpiry => cases ht; exact h
  case powerOnReset => cases ht; exact .of_empty rfl
  case resetLine => cases ht; exact .of_empty (congrArg Cues.queue (settle_cues ..))
  case stopDetectExpiry =>
    split at ht <;> cases ht
    · exact h
    · refine decided_cuesBeyond ?_ ..
      exact h.of_same rfl (congrArg Cues.queue (trigger_cues ..))
  case seamEdge =>
    split at ht <;> cases ht
    · exact blockStep_cuesBeyond (activeEdge_beyond h)
    · exact h
  case liftTimerExpiry =>
    split at ht <;> cases ht
    · exact h
    · exact blockStep_sameCues h (congrArg Cues.queue (liftExpiry_cues ..))
  case accountingTimerExpiry =>
    split at ht <;> cases ht
    · exact blockStep_sameCues h (accountingTick_queue ..)
    · exact h
  case cycleTimerExpiry =>
    split at ht <;> cases ht
    · exact h
    · exact blockStep_sameCues h (congrArg Cues.queue (cycleExpiry_cues ..))
  case exchangeQuietReached =>
    split at ht <;> cases ht
    · exact blockStep_sameCues h rfl
    · exact h
  case quietWaitTimeout | replyTimerExpiry =>
    split at ht <;> cases ht
    · exact h
    · exact blockStep_sameCues h (congrArg Cues.queue (missExchange_cues ..))
  case commandFrameSent =>
    split at ht <;> cases ht
    · exact blockStep_sameCues h rfl
    · exact h
  case replyFirstCharacter | stallTimerExpiry | statusTimerExpiry =>
    split at ht <;> cases ht
    · exact h
    · exact blockStep_sameCues h rfl
  case frameClosed =>
    unfold execFrameClosed at ht
    split at ht
    · split at ht <;> cases ht
      · exact blockStep_sameCues h (congrArg Cues.queue (judgeFrame_cues ..))
      · exact blockStep_sameCues h rfl
    · cases ht; exact h
  case hostAccessPresented =>
    unfold execHostAccessPresented at ht
    split at ht
    · cases ht
    · split at ht <;> cases ht
      · exact blockStep_sameCues h (congrArg Cues.queue (takeAccess_cues ..))
      · exact h
  case planWrite => cases ht; exact completeWord_sameCues h fun w b => congrArg Cues.queue (planEffect_cues _ b w)
  case settingsWrite => cases ht; exact completeWord_cuesBeyond h fun _ _ hb => recordWritten_beyond (x := s.ctx) le_rfl hb
  case mountWrite => cases ht; exact completeWord_sameCues h fun w b => congrArg Cues.queue (mountEffect_cues _ b w)
  case remountRequest => cases ht; exact completeWord_sameCues h fun w b => remountEffect_queue _ b w
  case trim => cases ht; exact completeWord_sameCues h fun w b => congrArg Cues.queue (trimEffect_cues _ b w)
  case acknowledge => cases ht; exact completeWord_sameCues h fun w b => congrArg Cues.queue (acknowledgeEffect_cues _ b w)
  case outcomeSlotFree | hostWordComplete | snapshotWindowWrite =>
    cases ht; exact completeWord_sameCues h fun _ _ => rfl
  case pageSelect => cases ht; exact completeWord_sameCues h fun _ _ => by unfold pageEffect; split <;> rfl
  case armingRequest => cases ht; exact completeWord_sameCues h fun _ _ => by unfold armingEffect; split <;> rfl
  case settingBurstReturned =>
    cases ht; exact completeAccess_cuesBeyond h fun _ u hu => fetchBurst_beyond (x := u.ctx) le_rfl hu
  case freeingWriteComplete => cases ht; exact onBlocks_sameCues h fun x _ b => congrArg Cues.queue (freeingDone_cues x b)
  case recordWord0Complete => cases ht; exact onBlocks_sameCues h fun x _ b => congrArg Cues.queue (recordDone_cues x b)
  case outcomeMapReadReturned => cases ht; exact onBlocks_sameCues h fun x ws b => congrArg Cues.queue (mapRead_cues x b ws)
  case anchorBurstReturned => cases ht; exact onBlocks_sameCues h fun x ws b => congrArg Cues.queue (anchorRead_cues x b ws)
  case planReadReturned | recordBurstComplete | statusBurstComplete | snapshotBurstComplete | snapshotClosingComplete
      | resultWordWritten =>
    cases ht; exact onBlocks_sameCues h fun _ _ _ => rfl
  case mountBurstReturned => cases ht; exact completeAccess_cuesBeyond h fun ws _ hu => mountRead_cuesBeyond hu ws
  case snapshotReadReturned => cases ht; exact completeAccess_cuesBeyond h fun ws _ hu => snapshotRead_cuesBeyond hu ws

/-- Every step keeps the cue queue beyond H, in due order. -/
theorem step_cuesBeyond {s t : State} (h : s.CuesBeyond) (ht : step s = .next t) : t.CuesBeyond := by
  unfold step at ht
  split at ht
  · cases ht; exact h
  · rename_i c rest _
    exact exec_cuesBeyond c (s := s.setPending rest) h ht

/-- Settles O8: every step keeps the cue queue within its 64 places, in due order and beyond H. -/
theorem queuedCuesLieBeyondH : Obligations.QueuedCuesLieBeyondH := by
  intro s t ⟨places, order, beyond⟩ hs
  have kept := step_cuesBeyond (s := s) ⟨⟨places, order⟩, beyond⟩ hs
  exact ⟨kept.places, kept.order, kept.beyond⟩

end Sys2Proof.Machine
end

section
/-! The scheduling, insertion and firing of cues, and what a fired cue does (R82 to R93). -/

namespace Sys2Proof.Machine

/-! ### Due positions (R84) -/

theorem numbered_succ {n : Nat} (v : Bank Nat n) (k : Fin n) : numbered v (k.val + 1) = v[k] := by
  simp [numbered]

theorem targetOffset_mark {u : Cue} (mark : u.action = .mark) (c : Anchor) : targetOffset c u = c.exitOffset := by
  simp [targetOffset, mark]

theorem targetOffset_zoneSet {u : Cue} {z : Fin 8} (set : u.action = .zoneSet) (target : u.target = z.val + 1) (c : Anchor) :
    targetOffset c u = c.zoneEntry[z] := by
  simp only [targetOffset, set, target, numbered_succ]

/-- The cue acts at a screen station (R90, R91). -/
def CueAction.atScreen (a : CueAction) : Prop := a ∈ [CueAction.lift, .lower, .pasteHold, .pasteResume]

theorem targetOffset_screen {u : Cue} {k : Fin 16} (screen : u.action.atScreen) (target : u.target = k.val + 1)
    (c : Anchor) : targetOffset c u = c.screenOffset[k] := by
  unfold targetOffset
  cases act : u.action
  case zoneSet | mark => simp [CueAction.atScreen, act] at screen
  all_goals simp only [target, numbered_succ]

/-- A number counted from 1 is one of its bank's. -/
theorem exists_counted {n t : Nat} (low : 1 ≤ t) (high : t ≤ n) : ∃ k : Fin n, t = k.val + 1 :=
  ⟨⟨t - 1, by omega⟩, (Nat.sub_add_cancel low).symm⟩

/-! ### The queue at an H advance and at an insertion (R85, R87) -/

/-- In due order, the cues fired at H are all those due at or below it. -/
theorem fireDue_ordered (x : Ctx) {b : Blocks} (order : b.cues.queue.Pairwise fun a b => a.due ≤ b.due) :
    fireDue x b = (b.cues.queue.filter fun p => decide (p.due ≤ x.motion.h)).foldl (fireCue x) (b.setCues { b.cues with
      queue := b.cues.queue.filter fun p => decide (x.motion.h < p.due) }) := by
  obtain ⟨fired, left⟩ := takeWhile_dropWhile_due order x.motion.h
  unfold fireDue
  rw [fired, Blocks.modCues, left]

/-- Of a queue beyond a position none stands at the head at or below it. -/
theorem takeWhile_beyond {h : Nat} {q : List PendingCue} (beyond : ∀ p ∈ q, h < p.due) {d : Nat} (le : d ≤ h) :
    q.takeWhile (fun p => p.due ≤ d) = [] ∧ q.dropWhile (fun p => p.due ≤ d) = q := by
  cases q with
  | nil => exact ⟨rfl, rfl⟩
  | cons p q =>
    have later : ¬ p.due ≤ d := not_le.mpr (le.trans_lt (beyond p List.mem_cons_self))
    exact ⟨List.takeWhile_cons_of_neg (by simpa using later), List.dropWhile_cons_of_neg (by simpa using later)⟩

/-- With every cue beyond H none fires. -/
theorem fireDue_beyondH {x : Ctx} {b : Blocks} (beyond : ∀ p ∈ b.cues.queue, x.motion.h < p.due) : fireDue x b = b := by
  obtain ⟨none, all⟩ := takeWhile_beyond beyond le_rfl
  unfold fireDue
  rw [none, Blocks.modCues, all]
  rfl

/-- A due cue before a queue beyond H fires alone. -/
theorem fireDue_head {x : Ctx} {b : Blocks} {p : PendingCue} {q : List PendingCue} (queue : b.cues.queue = p :: q)
    (due : p.due ≤ x.motion.h) (beyond : ∀ p ∈ q, x.motion.h < p.due) :
    fireDue x b = fireCue x (b.setCues { b.cues with queue := q }) p := by
  obtain ⟨none, all⟩ := takeWhile_beyond beyond le_rfl
  unfold fireDue
  rw [Blocks.modCues, queue, List.takeWhile_cons_of_pos (by simpa using due), List.dropWhile_cons_of_pos (by simpa using due),
    none, all]
  rfl

/-- The blocks once an insertion attempt is counted. -/
def countInsertion (b : Blocks) : Blocks := b.setCues { b.cues with insertions := b.cues.insertions + 1 }

/-- The pending cue that an insertion makes. -/
def pendingCue (c : Anchor) (bound edge q : Nat) (b : Blocks) (u : Cue) : PendingCue :=
  ⟨duePosition c edge u, u, q, decide (duePosition c edge u < bound), b.cues.insertions + 1⟩

section Insertion
variable {x : Ctx} {bound edge q : Nat} {b : Blocks} {c : Cue}

/-- With a place free the cue joins the queue, and what is due fires. -/
theorem insertCue_room (room : b.cues.queue.length < 64) : insertCue x bound edge q b c =
    fireDue x ((countInsertion b).setCues { (countInsertion b).cues with
      queue := insertDue (pendingCue x.cfg bound edge q b c) b.cues.queue }) := if_pos room

/-- A cue beyond H joins the queue. -/
theorem insertCue_joins (beyond : ∀ p ∈ b.cues.queue, x.motion.h < p.due) (room : b.cues.queue.length < 64)
    (later : x.motion.h < duePosition x.cfg edge c) : insertCue x bound edge q b c =
    (countInsertion b).setCues { (countInsertion b).cues with
      queue := insertDue (pendingCue x.cfg bound edge q b c) b.cues.queue } := by
  rw [insertCue_room room]
  refine fireDue_beyondH fun p hp => ?_
  rcases mem_insertDue.mp hp with rfl | held
  · exact later
  · exact beyond p held

/-- A cue at or below H leaves the queue at once. -/
theorem insertCue_fires (beyond : ∀ p ∈ b.cues.queue, x.motion.h < p.due) (room : b.cues.queue.length < 64)
    (due : duePosition x.cfg edge c ≤ x.motion.h) : insertCue x bound edge q b c =
    fireCue x (countInsertion b) (pendingCue x.cfg bound edge q b c) := by
  have first : insertDue (pendingCue x.cfg bound edge q b c) b.cues.queue =
      pendingCue x.cfg bound edge q b c :: b.cues.queue := by
    obtain ⟨none, all⟩ := takeWhile_beyond beyond (d := (pendingCue x.cfg bound edge q b c).due) due
    rw [insertDue, none, all]
    rfl
  rw [insertCue_room room, fireDue_head (by exact first) due beyond]
  rfl

/-- With 64 cues held the cue is dropped. -/
theorem insertCue_dropped (full : 64 ≤ b.cues.queue.length) : insertCue x bound edge q b c =
    ((raise .cueOverflow 0 (countInsertion b)).modTrack (modSeg q (modFlags fun f => { f with cuesLost := true }))).modCues
      fun s => { s with dropped := inc16 s.dropped } := if_neg (not_lt.mpr full)

end Insertion

/-! ### What a fired cue leaves of the cue queue and of the track -/

/-- Acting, a cue changes of the cue queue the MARK line and the stray count alone. -/
theorem actCue_cues (x : Ctx) (b : Blocks) (p : PendingCue) :
    ∃ pulse stray, (actCue x b p).cues = { b.cues with markPulse := pulse, stray := stray } := by
  have screen (k : Fin 16) (action : CueAction) (q : Nat) :
      ∃ pulse stray, (fireScreenCue x b k action q).cues = { b.cues with markPulse := pulse, stray := stray } := by
    unfold fireScreenCue
    split
    · rw [takeScreenCue_eq]
      exact ⟨_, _, rfl⟩
    · exact ⟨_, _, rfl⟩
  unfold actCue
  cases p.cue.action
  case zoneSet =>
    dsimp only
    split <;> exact ⟨_, _, rfl⟩
  case mark => exact ⟨_, _, rfl⟩
  case lift | lower | pasteHold | pasteResume =>
    dsimp only
    split
    · exact screen ..
    · exact ⟨_, _, rfl⟩

/-- A cue other than MARK leaves the track. -/
theorem actCue_track {p : PendingCue} (other : p.cue.action ≠ .mark) (x : Ctx) (b : Blocks) :
    (actCue x b p).track = b.track := by
  have screen (k : Fin 16) (action : CueAction) (q : Nat) : (fireScreenCue x b k action q).track = b.track := by
    unfold fireScreenCue
    split
    · rw [takeScreenCue_eq]
      rfl
    · rfl
  unfold actCue
  cases act : p.cue.action
  case zoneSet =>
    dsimp only
    split <;> rfl
  case mark => exact absurd act other
  case lift | lower | pasteHold | pasteResume =>
    dsimp only
    split
    · exact screen ..
    · rfl

/-! ### The blocks as a cue fires, before it acts (R86, R87) -/

/-- A cue that fires is counted, and a late one flags its segment. -/
def firing (p : PendingCue) (b : Blocks) : Blocks := flagLate p (b.modCues fun s => { s with fired := inc32 s.fired })

/-- The LATE flag of a segment of which a cue fires. -/
def lateSeg (p : PendingCue) : Segment → Segment := modFlags fun f => { f with late := f.late || p.late }

theorem firing_eq (p : PendingCue) (b : Blocks) : firing p b = (b.setTrack (modSeg p.seq (lateSeg p) b.track)).setCues
    { b.cues with fired := inc32 b.cues.fired, late := if p.late then inc16 b.cues.late else b.cues.late } := by
  unfold firing flagLate
  by_cases late : p.late = true
  · have flag : lateSeg p = modFlags fun f => { f with late := true } := by simp [lateSeg, late]
    rw [if_pos late, if_pos late, flag]
    rfl
  · have flag : lateSeg p = id := by
      funext g
      simp [lateSeg, modFlags, late]
    have same : modSeg p.seq (lateSeg p) b.track = b.track := by simp [modSeg, flag]
    rw [if_neg late, if_neg late, same]
    rfl

/-- The segment at a coordinate, after a change of a segment that keeps its head and length. -/
theorem segmentAt_modSeg (q : Nat) {f : Segment → Segment} (hf : ∀ g, (f g).head = g.head ∧ (f g).length = g.length)
    (t : Track) (c : Nat) :
    (modSeg q f t).segmentAt c = (t.segmentAt c).map fun g => if g.seq = q then f g else g := by
  have same (g : Segment) : covers t.boundary c (if g.seq = q then f g else g) = covers t.boundary c g := by
    split
    · simp only [covers, hf]
    · rfl
  have pulled : covers t.boundary c ∘ (fun g => if g.seq = q then f g else g) = covers t.boundary c := funext same
  simp only [Track.segmentAt, modSeg, List.find?_map, pulled]

section Firing
variable (x : Ctx) (b : Blocks) {p : PendingCue}

/-- The retirement test of a cue whose segment the track holds (R87). -/
theorem pastRetirement_iff {t : Track} {g : Segment} (held : t.find p.seq = some g) :
    pastRetirement x t p = true ↔ ∃ n, g.length = some n ∧ g.head + n + x.cfg.exitOffset ≤ p.due := by
  simp only [pastRetirement, held]
  cases g.length <;> simp

theorem fireCue_cancelled (past : pastRetirement x b.track p = true) :
    fireCue x b p = b.setCues { b.cues with cancelled := inc16 b.cues.cancelled } := if_pos past

theorem fireCue_acts (before : ¬ pastRetirement x b.track p = true) : fireCue x b p = actCue x (firing p b) p :=
  if_neg before

/-- A fired cue leaves the insertion count. -/
theorem fireCue_insertions (p : PendingCue) : (fireCue x b p).cues.insertions = b.cues.insertions := by
  by_cases past : pastRetirement x b.track p = true
  · rw [fireCue_cancelled x b past]
    rfl
  · obtain ⟨_, _, cues⟩ := actCue_cues x (firing p b) p
    rw [fireCue_acts x b past, cues, firing_eq]
    rfl

/-! ### Each action (R90 to R93) -/

theorem find_firing {g : Segment} (held : b.track.find p.seq = some g) :
    (firing p b).track.find p.seq = some (lateSeg p g) := by
  rw [firing_eq, Blocks.setCues_track, Blocks.setTrack_track, find_modSeg _ (lateSeg p) (fun _ => rfl), held]
  rfl

theorem actCue_mark (mark : p.cue.action = .mark) : actCue x b p = fireMark x b p.seq p.cue.value := by
  simp only [actCue, mark]

/-- The segment of a MARK cue takes its record. -/
theorem find_actCue_mark (mark : p.cue.action = .mark) {g : Segment} (held : b.track.find p.seq = some g) :
    (actCue x b p).track.find p.seq =
      some (recordMark ((x.motion.h : Int) - x.cfg.exitOffset - g.head) p.cue.value g) := by
  have seq (g : Segment) (rel : Int) (code : Nat) : (recordMark rel code g).seq = g.seq := by
    unfold recordMark
    split <;> rfl
  rw [actCue_mark x b mark, fireMark, Blocks.modTrack_track, Blocks.modCues_track,
    find_modSeg _ _ fun g => seq g _ _, held]
  rfl

theorem recordMark_flags (rel : Int) (code : Nat) (g : Segment) : (recordMark rel code g).flags = g.flags := by
  unfold recordMark
  split <;> rfl

/-- A fired cue's segment stays on the track, LATE where it was or where the cue is late (R86). -/
theorem actCue_late {g : Segment} (held : b.track.find p.seq = some g) :
    ∃ g', (actCue x (firing p b) p).track.find p.seq = some g' ∧ g'.flags.late = (g.flags.late || p.late) := by
  have flagged := find_firing b held
  by_cases mark : p.cue.action = .mark
  · exact ⟨_, find_actCue_mark x _ mark flagged, by rw [recordMark_flags]; rfl⟩
  · rw [actCue_track mark]
    exact ⟨_, flagged, rfl⟩

theorem screenOf_succ (k : Fin 16) : screenOf (k.val + 1) = some k := by
  simp [screenOf]

theorem zoneOf_succ (z : Fin 8) : zoneOf (z.val + 1) = some z := by
  simp [zoneOf]

theorem actCue_zoneSet {z : Fin 8} (set : p.cue.action = .zoneSet) (target : p.cue.target = z.val + 1) :
    actCue x b p = zoneSet z p.cue.value b := by
  simp only [actCue, set, target, zoneOf_succ]

theorem actCue_screen {k : Fin 16} (screen : p.cue.action.atScreen) (target : p.cue.target = k.val + 1) :
    actCue x b p = fireScreenCue x b k p.cue.action p.seq := by
  unfold actCue
  cases act : p.cue.action
  case zoneSet | mark => simp [CueAction.atScreen, act] at screen
  all_goals simp only [target, screenOf_succ]

/-- The acceptance test (R90). -/
theorem acceptsCue_iff (k : Fin 16) (q : Nat) : acceptsCue x b k q = true ↔ b.stations.station[k].mount.mounted = true ∧
    ∃ f u, coordinate x.motion.h x.cfg.screenOffset[k] = some f ∧ b.track.segmentAt f = some u ∧ u.seq = q := by
  unfold acceptsCue
  rw [Bool.and_eq_true]
  refine and_congr_right' ?_
  unfold stationCoordinate
  cases coordinate x.motion.h x.cfg.screenOffset[k] with
  | none => simp
  | some f =>
    dsimp only
    cases holds : b.track.segmentAt f <;> simp [holds]

/-- The LATE flag does not bear on the acceptance test. -/
theorem acceptsCue_firing (k : Fin 16) : acceptsCue x (firing p b) k p.seq = acceptsCue x b k p.seq := by
  have seq (u : Segment) : (if u.seq = p.seq then lateSeg p u else u).seq = u.seq := by split <;> rfl
  rw [firing_eq, Bool.eq_iff_iff, acceptsCue_iff, acceptsCue_iff, Blocks.setCues_track, Blocks.setTrack_track,
    Blocks.setCues_stations, Blocks.setTrack_stations]
  simp only [segmentAt_modSeg p.seq (f := lateSeg p) (fun _ => ⟨rfl, rfl⟩), Option.map_eq_some_iff]
  refine and_congr_right' (exists_congr fun f => ⟨?_, ?_⟩)
  · rintro ⟨_, at_f, ⟨u, there, rfl⟩, own⟩
    exact ⟨u, at_f, there, by rwa [seq] at own⟩
  · rintro ⟨u, at_f, there, own⟩
    exact ⟨_, at_f, ⟨u, there, rfl⟩, by rwa [seq]⟩

/-- An accepted screen cue changes its station alone (R90, R91, R103). -/
theorem fireScreenCue_accepted {k : Fin 16} {action : CueAction} {q : Nat} (accepted : acceptsCue x b k q = true) :
    let st := b.stations.station[k]
    let cued := screenCue action q st
    let w := wantOf x (fireScreenCue x b k action q) k
    (fireScreenCue x b k action q).cues = b.cues ∧
    (fireScreenCue x b k action q).stations = { b.stations with
      station := b.stations.station.set k
        (if cued.override = st.override ∨ w = st.want then cued
         else liftWant b.stations.liftTimeout w { cued with want := w }) } := by
  have taken : fireScreenCue x b k action q = takeScreenCue x b k action q := if_pos accepted
  intro st cued w
  have whole := takeScreenCue_eq x b k action q
  simp only [w, taken]
  exact ⟨by rw [whole]; rfl, congrArg Blocks.stations whole⟩

theorem fireScreenCue_stray {k : Fin 16} {action : CueAction} {q : Nat} (stray : ¬ acceptsCue x b k q = true) :
    fireScreenCue x b k action q = b.setCues { b.cues with stray := inc16 b.cues.stray } := if_neg stray

end Firing

/-! ### The statement -/

/-- The due position of a cue for a target of its action (R84). -/
theorem targetOffset_of_valid {c : Anchor} {u : Cue} {offset : Nat} (mark : u.action = .mark → offset = c.exitOffset)
    (zone : ∀ z : Fin 8, u.action = .zoneSet → u.target = z.val + 1 → offset = c.zoneEntry[z])
    (screen : ∀ k : Fin 16, u.action.atScreen → u.target = k.val + 1 → offset = c.screenOffset[k])
    (valid : u.action = .mark ∨ (u.action = .zoneSet ∧ 1 ≤ u.target ∧ u.target ≤ 8) ∨
      (u.action.atScreen ∧ 1 ≤ u.target ∧ u.target ≤ 16)) : targetOffset c u = offset := by
  rcases valid with act | ⟨act, low, high⟩ | ⟨act, low, high⟩
  · rw [mark act, targetOffset_mark act]
  · obtain ⟨z, target⟩ := exists_counted low high
    rw [zone z act target, targetOffset_zoneSet act target]
  · obtain ⟨k, target⟩ := exists_counted low high
    rw [screen k act target, targetOffset_screen act target]

/-- A MARK cue drives the line, and its segment takes the record (R93). -/
theorem actCue_mark_effect (x : Ctx) {b : Blocks} {p : PendingCue} {g : Segment} (held : b.track.find p.seq = some g)
    (mark : p.cue.action = .mark) :
    (actCue x (firing p b) p).cues.markPulse = true ∧
    (4 ≤ g.markList.length → ∃ g', (actCue x (firing p b) p).track.find p.seq = some g' ∧ g'.markList = g.markList ∧
      g'.furtherMarks = inc8 g.furtherMarks) ∧
    (g.markList.length < 4 → ∃ g', (actCue x (firing p b) p).track.find p.seq = some g' ∧
      g'.markList = g.markList ++ [⟨(x.motion.h : Int) - x.cfg.exitOffset - g.head, p.cue.value⟩]) := by
  have recorded := find_actCue_mark x (firing p b) mark (find_firing b held)
  refine ⟨by rw [actCue_mark x _ mark]; rfl, fun full => ⟨_, recorded, ?_⟩, fun room => ⟨_, recorded, ?_⟩⟩
  · rw [recordMark, if_neg (not_lt.mpr (by exact full))]
    exact ⟨rfl, rfl⟩
  · rw [recordMark, if_pos (by exact room)]
    rfl

section Insertion
variable {x : Ctx} {bound edge q : Nat} {b : Blocks} {c : Cue}

/-- Every insertion attempt is counted (R85). -/
theorem insertCue_insertions (beyond : ∀ p ∈ b.cues.queue, x.motion.h < p.due) :
    (insertCue x bound edge q b c).cues.insertions = b.cues.insertions + 1 := by
  by_cases room : b.cues.queue.length < 64
  · by_cases later : x.motion.h < duePosition x.cfg edge c
    · rw [insertCue_joins beyond room later]
      rfl
    · rw [insertCue_fires beyond room (not_lt.mp later), fireCue_insertions]
      rfl
  · rw [insertCue_dropped (not_lt.mp room)]
    simp [countInsertion]

/-- A dropped cue is counted, raises CUE_OVERFLOW and flags its segment (R85). -/
theorem insertCue_dropped_effect (live : b.live = true) (full : 64 ≤ b.cues.queue.length) :
    (insertCue x bound edge q b c).cues.queue = b.cues.queue ∧
    (insertCue x bound edge q b c).cues.dropped = inc16 b.cues.dropped ∧
    Raised .cueOverflow 0 .hold b.causes (insertCue x bound edge q b c).causes ∧
    ∀ g ∈ (insertCue x bound edge q b c).track.segs, g.seq = q → g.flags.cuesLost = true := by
  rw [insertCue_dropped full]
  refine ⟨by simp [countInsertion], by simp [countInsertion], raiseAt_raised .cueOverflow 0 .hold _ live, ?_⟩
  simp only [Blocks.modCues_track, Blocks.modTrack_track, modSeg, List.mem_map]
  rintro _ ⟨g, _, rfl⟩
  split
  · exact fun _ => rfl
  · rename_i other
    exact fun own => absurd own other

end Insertion

/-- Settles O39: the queue at an H advance, due positions, insertions, and what a fired cue does. -/
theorem cuesQueueAndFire : Obligations.CuesQueueAndFire := by
  refine ⟨fun x entering b order => ⟨fireDue_ordered x order, ?_⟩, ⟨fun _ _ _ _ _ _ => rfl, ?_⟩, ?_, ?_⟩
  · rw [takeAdvance, fireDue_queue, (takeWhile_dropWhile_due order _).2]
  · intro c edge u offset mark zone screen valid fits
    rw [duePosition, targetOffset_of_valid mark zone screen valid, position_of_lt fits]
  · intro x bound edge q b c live beyond
    dsimp only
    refine ⟨insertCue_insertions beyond, fun room later => ?_, insertCue_fires beyond, insertCue_dropped_effect live⟩
    rw [insertCue_joins beyond room later]
    exact ⟨rfl, rfl, rfl, rfl⟩
  · intro x b p g held
    have judged := pastRetirement_iff x held
    refine ⟨fun n length past => fireCue_cancelled x b (judged.mpr ⟨n, length, past⟩), fun before => ?_⟩
    have acts := fireCue_acts x b (p := p) fun past => by
      obtain ⟨n, length, due⟩ := judged.mp past
      exact absurd (before n length) (not_lt.mpr due)
    dsimp only
    rw [acts]
    obtain ⟨_, _, cues⟩ := actCue_cues x (firing p b) p
    have stations : (firing p b).stations = b.stations := by rw [firing_eq]; rfl
    refine ⟨by rw [cues, firing_eq]; rfl, by rw [cues, firing_eq]; rfl, actCue_late x b held, actCue_mark_effect x held,
      fun k screen target => ?_, fun z set target => ?_⟩
    · rw [actCue_screen x _ screen target, ← acceptsCue_iff, ← acceptsCue_firing]
      refine ⟨fun accepted => ?_, fun stray => ?_⟩
      · obtain ⟨cues, taken⟩ := fireScreenCue_accepted x (firing p b) (action := p.cue.action) accepted
        refine ⟨by rw [cues, firing_eq]; rfl, ?_⟩
        rw [taken, stations]
        cases act : p.cue.action
        case zoneSet | mark => simp [act] at screen
        all_goals rfl
      · rw [fireScreenCue_stray x _ stray, firing_eq]
        exact ⟨rfl, rfl⟩
    · rw [actCue_zoneSet x _ set target, firing_eq]
      exact ⟨modZone_same .., fun j other => modZone_other _ other _⟩

end Sys2Proof.Machine
end

section
/-! The command frame of a screen's module: its paste rate and its phase reference (R109, R112, R146, R200). -/

namespace Sys2Proof.Machine

/-- A screen's module stands at the screen's number. -/
theorem val_of_moduleScreen {a : Fin 24} {k : Fin 16} (serves : moduleScreen a = some k) : a.val = k.val := by
  unfold moduleScreen at serves
  split at serves
  · cases serves
    rfl
  · cases serves

theorem commandFrame_screen {a : Fin 24} {k : Fin 16} (serves : moduleScreen a = some k) (x : Ctx) (b : Blocks) :
    commandFrame x b a = screenFrame (moduleSource a) (liftCommandDown (b.stationOf k).lift) b.field.module[a].selector
      (phaseReference x k b.field.phase[k] (b.stationOf k)) (pasteRate b k) := by
  simp only [commandFrame, serves]

/-! ### The paste rate (R112) -/

section PasteRate
variable {b : Blocks} {k : Fin 16}

theorem pasteRate_off (off : (b.stationOf k).lift ≠ .engaged ∨ (b.stationOf k).pasteHold.isSome = true) :
    pasteRate b k = 0 := if_pos off

/-- The rate is 0 unless the station holds a segment. -/
theorem pasteRate_unheld (unheld : ∀ q, (b.stationOf k).holding ≠ .segment q) : pasteRate b k = 0 := by
  unfold pasteRate
  dsimp only
  split
  · rfl
  · split
    · exact absurd ‹_› (unheld _)
    all_goals rfl

/-- The rate that a setting gives with a trim. -/
def rateOf (v : Setting) (k : Fin 16) (trim : Int) : Nat :=
  if v.engages k then (max 0 (min 1000 ((v.paste[k] : Int) + trim))).toNat else 0

theorem rateOf_le (v : Setting) (k : Fin 16) (trim : Int) : rateOf v k trim ≤ 1000 := by
  unfold rateOf
  split <;> omega

/-- What the rate is where the station holds a segment. -/
theorem pasteRate_segment {q : Nat} (holding : (b.stationOf k).holding = .segment q) : pasteRate b k =
    if (b.stationOf k).lift ≠ .engaged ∨ (b.stationOf k).pasteHold.isSome = true then 0
    else ((b.track.find q).bind (segSetting b.cache)).elim 0 fun v => rateOf v k (b.stationOf k).trim.paste := by
  unfold pasteRate
  cases found : (b.track.find q).bind (segSetting b.cache) <;> simp only [holding, found, rateOf, Option.elim]

theorem pasteRate_le (b : Blocks) (k : Fin 16) : pasteRate b k ≤ 1000 := by
  cases holding : (b.stationOf k).holding with
  | segment q =>
    rw [pasteRate_segment holding]
    split
    · omega
    · cases (b.track.find q).bind (segSetting b.cache) with
      | some v => exact rateOf_le ..
      | none => exact Nat.zero_le _
  | gap | before =>
    rw [pasteRate_unheld (by simp [holding])]
    omega

variable {q : Nat} (holding : (b.stationOf k).holding = .segment q)
include holding

theorem pasteRate_unset (unset : (b.track.find q).bind (segSetting b.cache) = none) : pasteRate b k = 0 := by
  rw [pasteRate_segment holding, unset, Option.elim_none, ite_self]

variable {v : Setting} (setting : (b.track.find q).bind (segSetting b.cache) = some v)
include setting

theorem pasteRate_clear (clear : v.engages k = false) : pasteRate b k = 0 := by
  rw [pasteRate_segment holding, setting]
  simp [rateOf, clear]

theorem pasteRate_engaged (engaged : (b.stationOf k).lift = .engaged) (free : (b.stationOf k).pasteHold = none)
    (engages : v.engages k = true) :
    (pasteRate b k : Int) = max 0 (min 1000 ((v.paste[k] : Int) + (b.stationOf k).trim.paste)) := by
  have rate : pasteRate b k = rateOf v k (b.stationOf k).trim.paste := by
    rw [pasteRate_segment holding, setting, if_neg (by simp [engaged, free]), Option.elim_some]
  rw [rate, rateOf, if_pos engages]
  omega

end PasteRate

/-- Settles O43: the paste rate in the frame, its bound, and what it is in each case of R112. -/
theorem pasteRateFollowsTheSegment : Obligations.PasteRateFollowsTheSegment := by
  intro x b a k serves
  dsimp only
  refine ⟨?_, pasteRate_le b k, fun lifted => pasteRate_off (.inl lifted), fun held => pasteRate_off (.inr held),
    pasteRate_unheld, fun q holding => ⟨fun g v found setting => ?_, fun gone => ?_, fun g found unset => ?_⟩⟩
  · rw [commandFrame_screen serves]
    rfl
  · have setting' : (b.track.find q).bind (segSetting b.cache) = some v := by rw [found]; exact setting
    exact ⟨pasteRate_clear holding setting', pasteRate_engaged holding setting'⟩
  · exact pasteRate_unset holding (by rw [gone]; rfl)
  · exact pasteRate_unset holding (by rw [found]; exact unset)

end Sys2Proof.Machine
end

section
/-! Link cycles and the phases of an exchange (R100, R109, R141, R143 to R146). -/

namespace Sys2Proof.Machine

/-! ### The phase reference (R109) -/

/-- A value within one span of the reference interval, moved by that span where it lies outside, is its remainder. -/
theorem reduced_eq_emod {v span : Int} (low : -span ≤ v) (high : v < 2 * span) :
    (if v < 0 then v + span else if span ≤ v then v - span else v) = v % span := by
  split
  · rw [← Int.add_emod_right, Int.emod_eq_of_lt (by omega) (by omega)]
  · split
    · rw [← Int.sub_emod_right, Int.emod_eq_of_lt (by omega) (by omega)]
    · rw [Int.emod_eq_of_lt (by omega) (by omega)]

/-- The reference of a mounted screen whose trim stays within one repeat. -/
theorem phaseReference_mounted {x : Ctx} {k : Fin 16} {d : PhaseData} {st : Station} (mounted : st.mount.mounted = true)
    (positive : 0 < d.repeatLen) (low : -(10 * d.repeatLen : Int) ≤ st.trim.phase)
    (high : st.trim.phase ≤ 10 * d.repeatLen) : (phaseReference x k d st : Int) =
      (10 * (((x.motion.p : Int) - x.cfg.screenOffset[k] + d.origin) % d.repeatLen) + st.trim.phase) %
        (10 * d.repeatLen) := by
  have units : (phaseUnits x k (d.applied st.mount) : Int) =
      ((x.motion.p : Int) - x.cfg.screenOffset[k] + d.origin) % d.repeatLen := phaseUnits_eq x k positive
  have nonneg := Int.emod_nonneg ((x.motion.p : Int) - x.cfg.screenOffset[k] + d.origin)
    (show (d.repeatLen : Int) ≠ 0 by omega)
  have below := Int.emod_lt_of_pos ((x.motion.p : Int) - x.cfg.screenOffset[k] + d.origin)
    (show (0 : Int) < d.repeatLen by omega)
  unfold phaseReference
  dsimp only
  rw [if_pos mounted, units, reduced_eq_emod (by omega) (by omega)]
  exact Int.toNat_of_nonneg (Int.emod_nonneg _ (by omega))

/-! ### Link cycles (R143, R144) -/

/-- The lowest configured module is the first one chosen (R144). -/
theorem chooseModule_first {x : Ctx} {b : Blocks} {a : Fin 24} (present : configured x b a = true)
    (lowest : ∀ a' : Fin 24, a' < a → configured x b a' = false) : chooseModule x b none = some a := by
  unfold chooseModule modules
  simp only [Bool.and_true]
  rw [List.find?_eq_some_iff_getElem]
  refine ⟨present, a.val, by simp, by simp, fun j below => ?_⟩
  simpa using lowest ⟨j, by omega⟩ below

theorem chooseModule_none {x : Ctx} {b : Blocks} (absent : ∀ a, configured x b a = false) (last : Option (Fin 24)) :
    chooseModule x b last = none := by
  simp [chooseModule, absent]

/-- The mount data in force as phase data, screen by screen (R100). -/
def phasesInForce (t : Stations) : Bank PhaseData 16 := Bank.tabulate fun k => t.station[k].mount.phaseData

theorem phasesInForce_get (t : Stations) (k : Fin 16) :
    (phasesInForce t)[k] = ⟨t.station[k].mount.repeatLen, t.station[k].mount.origin⟩ := tabulate_get _ k

/-- The timer's expiry while idle starts a cycle with the first module chosen. -/
theorem cycleExpiry_starts {x : Ctx} {b : Blocks} {a : Fin 24} (idle : b.field.exchange = none)
    (chosen : chooseModule x b none = some a) : cycleExpiry x b = b.setField { b.field with
      cycles := b.field.cycles + 1, cycleTimer := some x.cfg.cyclePeriod, exchange := some ⟨a, .quiet, false⟩
      phase := phasesInForce b.stations } := by
  have chosen' : chooseModule x (b.modField fun f => { f with cycleTimer := none }) none = some a := chosen
  simp only [cycleExpiry, Blocks.modField_field, idle, startCycle, chosen']
  rfl

/-- With no module to choose the cycle ends at its start, with a duration of 0 (log 6). -/
theorem cycleExpiry_empty {x : Ctx} {b : Blocks} (idle : b.field.exchange = none)
    (unchosen : chooseModule x b none = none) : cycleExpiry x b = b.setField { b.field with
      cycles := b.field.cycles + 1, cycleTimer := some x.cfg.cyclePeriod, lastDuration := 0
      phase := phasesInForce b.stations } := by
  have unchosen' : chooseModule x (b.modField fun f => { f with cycleTimer := none }) none = none := unchosen
  simp only [cycleExpiry, Blocks.modField_field, idle, startCycle, unchosen']
  rw [← idle]
  rfl

/-- The expiry in a cycle owes a start. -/
theorem cycleExpiry_owes {x : Ctx} {b : Blocks} {e : Exchange} (busy : b.field.exchange = some e) :
    cycleExpiry x b = b.setField { b.field with cycleTimer := none, startOwed := true } := by
  simp only [cycleExpiry, Blocks.modField_field, busy]
  rw [← busy]
  rfl

theorem exec_cycleTimerExpiry {s : State} {n : Nat} (running : s.blk.field.cycleTimer = some n) :
    exec .cycleTimerExpiry s = .next (blockStep cycleExpiry s) := by
  simp only [exec, execCycleTimerExpiry, running]

/-- The phase data after a step that sets them. -/
theorem phase_of_follows {s t : State} {f : FieldLine} (follows : FollowsFrom (s.setBlk (s.blk.setField f)) t) :
    t.blk.field.phase = f.phase := by
  obtain ⟨⟨_, _, _, _, _, _, _, _, _, _, field, _⟩, _⟩ := follows
  rw [field]
  rfl

/-- A cycle timer's expiry that leaves the field line with the phase data in force. -/
theorem cycleTimerExpiry_leaves {s : State} {n : Nat} (running : s.blk.field.cycleTimer = some n) {f : FieldLine}
    (expiry : cycleExpiry s.ctx s.blk = s.blk.setField f) (inForce : f.phase = phasesInForce s.blk.stations) :
    ∃ t, exec .cycleTimerExpiry s = .next t ∧
      (∀ k : Fin 16, t.blk.field.phase[k] =
        ⟨s.blk.stations.station[k].mount.repeatLen, s.blk.stations.station[k].mount.origin⟩) ∧
      FollowsFrom (s.setBlk (s.blk.setField { f with phase := t.blk.field.phase })) t := by
  have follows := blockStep_follows cycleExpiry s
  rw [expiry] at follows
  have phase := (phase_of_follows follows).trans inForce
  refine ⟨_, exec_cycleTimerExpiry running, fun k => ?_, ?_⟩
  · rw [phase, phasesInForce_get]
  · rw [phase, ← inForce]
    exact follows

/-! ### The phases of an exchange (R141, R145, R146) -/

theorem inPhase_of_exchange {f : FieldLine} {a : Fin 24} {ph : ExchangePhase} {sel : Bool}
    (exchange : f.exchange = some ⟨a, ph, sel⟩) : f.inPhase ph = some ⟨a, ph, sel⟩ := by
  simp [FieldLine.inPhase, exchange]

/-- A step of the blocks that changes the field line alone. -/
theorem follows_setField {g : Ctx → Blocks → Blocks} {s : State} {f : FieldLine}
    (work : g s.ctx s.blk = s.blk.setField f) : FollowsFrom (s.setBlk (s.blk.setField f)) (blockStep g s) := by
  rw [← work]
  exact blockStep_follows g s

theorem commandSent_eq {x : Ctx} {b : Blocks} {a : Fin 24} {sel : Bool} (sending : b.field.exchange = some ⟨a, .sending, sel⟩) :
    commandSent x b = b.setField { b.field with
      exchange := some ⟨a, .awaiting, sel⟩, lineDriven := false, replyTimer := some x.cfg.replyTimeout } := by
  simp only [commandSent, Blocks.modField, sending]

/-- Settles O47: a cycle's start, the references of its frames, and the phases of an exchange. -/
theorem cyclesAndExchangesRun : Obligations.CyclesAndExchangesRun := by
  refine ⟨fun s n running => ⟨fun idle a present lowest => ?_, fun idle absent => ?_, fun e busy => ?_⟩,
    fun x b a k serves => ⟨?_, phaseReference_mounted⟩, fun s a sel => ⟨fun quiet released => ?_,
      fun sending driven => ?_, fun awaiting => ?_⟩⟩
  · exact cycleTimerExpiry_leaves running (cycleExpiry_starts idle (chooseModule_first present lowest)) rfl
  · exact cycleTimerExpiry_leaves running (cycleExpiry_empty idle (chooseModule_none absent none)) rfl
  · exact ⟨_, exec_cycleTimerExpiry running, follows_setField (cycleExpiry_owes busy)⟩
  · rw [commandFrame_screen serves]
    rfl
  · refine ⟨_, ?_, follows_setField (g := fun x b => sendCommand x ⟨a, .quiet, sel⟩ b) rfl⟩
    simp only [exec, execExchangeQuietReached, inPhase_of_exchange quiet, released]
  · exact ⟨_, if_pos driven, follows_setField (commandSent_eq sending)⟩
  · refine ⟨_, ?_, follows_setField (g := fun _ b => firstCharacter ⟨a, .awaiting, sel⟩ b) rfl⟩
    simp only [exec, execReplyFirstCharacter, inPhase_of_exchange awaiting]

end Sys2Proof.Machine
end

section
/-! Writes into the mount window: the image, and trims judged (R98, R111). -/

namespace Sys2Proof.Machine

/-! ### A word with the enabled bytes of another (R98, log 2) -/

/-- A byte enable masks its lane. -/
theorem getLsbD_laneMask : ∀ (en : BitVec 4) (j : Fin 32), (laneMask en).getLsbD j = en.getLsbD (j / 8) := by decide

theorem getLsbD_mergeWord (old : Word) (w : WriteWord) {j : Nat} (inside : j < 32) :
    (mergeWord old w).getLsbD j = if w.enables.getLsbD (j / 8) then w.value.getLsbD j else old.getLsbD j := by
  have mask : (laneMask w.enables).getLsbD j = w.enables.getLsbD (j / 8) := getLsbD_laneMask w.enables ⟨j, inside⟩
  rw [mergeWord, BitVec.getLsbD_or, BitVec.getLsbD_and, BitVec.getLsbD_and, BitVec.getLsbD_not, mask]
  cases w.enables.getLsbD (j / 8) <;> simp [inside]

/-- Each lane of the merged word is the new word's where its enable is set, the old one's elsewhere. -/
theorem mergeWord_lane (old : Word) (w : WriteWord) {i : Nat} (lane : i < 4) : (mergeWord old w).extractLsb' (8 * i) 8 =
    if w.enables.getLsbD i then w.value.extractLsb' (8 * i) 8 else old.extractLsb' (8 * i) 8 := by
  refine BitVec.eq_of_getLsbD_eq fun j inside => ?_
  have bits := getLsbD_mergeWord old w (show 8 * i + j < 32 by omega)
  rw [show (8 * i + j) / 8 = i by omega] at bits
  split at bits <;> simp_all

/-- A full word replaces the old one. -/
theorem mergeWord_full (old : Word) {w : WriteWord} (full : w.enables = 0xF#4) : mergeWord old w = w.value := by
  refine BitVec.eq_of_getLsbD_eq fun j inside => ?_
  have enabled : w.enables.getLsbD (j / 8) = true := by
    have lane : j / 8 < 4 := by omega
    rw [full]
    interval_cases j / 8 <;> rfl
  rw [getLsbD_mergeWord old w inside, if_pos enabled]

/-! ### The image (R98) -/

theorem applyImage_eq {off : Nat} (inside : off < 96) (v : WriteWord) (b : Blocks) : applyImage off v b =
    b.setStations { b.stations with image := b.stations.image.set off (mergeWord b.stations.image[off] v) } :=
  dif_pos inside

/-- A word of the mount window that is not dropped is applied to the image. -/
theorem mountEffect_carries {s : State} {w : CarriedWord} {v : WriteWord} {off : Nat}
    (carries : CarriesWrite s w v .mount off) :
    mountEffect s.ctx w (wordBlocks s w) = applyImage off v (wordBlocks s w) := by
  obtain ⟨_, _, word, _, place⟩ := carries
  have place' : w.place s.ctx (wordBlocks s w) = (.mount, off) := place
  rw [mountEffect, word]
  dsimp only
  rw [place']

/-- A partial word, the closing word's zero, and a word that is neither the closing word nor a trim word. -/
theorem classOf_mount {v : WriteWord} {off : Nat} (inside : off < 96)
    (plain : v.enables ≠ 0xF#4 ∨ (off = 95 ∧ v.value = 0) ∨ (off < 95 ∧ (off % 4 ≠ 3 ∨ 64 ≤ off))) (b : Blocks) :
    classOf b v (.mount, off) = .mount := by
  have closing : ¬ (off = 95 ∧ fullNonzero v = true) := by
    rintro ⟨last, nonzero⟩
    obtain ⟨full, nonzero⟩ := of_decide_eq_true nonzero
    rcases plain with part | ⟨_, zero⟩ | ⟨below, _⟩
    · exact part full
    · exact nonzero zero
    · omega
  have trim : ¬ (off < 64 ∧ off % 4 = 3 ∧ v.enables = 0xF#4) := by
    rintro ⟨low, third, full⟩
    rcases plain with part | ⟨last, _⟩ | ⟨_, other | high⟩
    · exact part full
    all_goals omega
  rw [classOf, if_neg closing, if_neg trim]

theorem classOf_trim {v : WriteWord} {k : Fin 16} (full : v.enables = 0xF#4) (b : Blocks) :
    classOf b v (.mount, 4 * k.val + 3) = .trim := by
  rw [classOf, if_neg (by omega), if_pos ⟨by omega, by omega, full⟩]

/-- A word of the mount window that asks for nothing reaches the image and memory. -/
theorem mountWrite_leaves {s : State} {w : CarriedWord} {v : WriteWord} {off : Nat} (inside : off < 96)
    (carries : CarriesWrite s w v .mount off)
    (plain : v.enables ≠ 0xF#4 ∨ (off = 95 ∧ v.value = 0) ∨ (off < 95 ∧ (off % 4 ≠ 3 ∨ 64 ≤ off))) (decision : Decision) :
    WordLeaves s w v (s.blk.setStations { s.blk.stations with
      image := s.blk.stations.image.set off (mergeWord s.blk.stations.image[off] v) })
      (completeWord .mount decision mountEffect s) := by
  obtain ⟨q, eq, kept⟩ := wordBlocks_butPath carries
  have leaves := completeWord_leaves carries (decision := decision) (effect := mountEffect)
    (b := s.blk.setStations { s.blk.stations with
      image := s.blk.stations.image.set off (mergeWord s.blk.stations.image[off] v) })
    ⟨q, by rw [mountEffect_carries carries, applyImage_eq inside, eq]; rfl, kept⟩
  rwa [classOf_mount inside plain] at leaves

/-! ### Trims (R111) -/

/-- A signed field is the two's complement value of its bits (R198). -/
theorem sfld_eq_toInt (w : Word) (lo : Nat) {n : Nat} (positive : 0 < n) : sfld w lo n = (w.extractLsb' lo n).toInt := by
  have halves : 2 ^ n = 2 * 2 ^ (n - 1) := by
    rw [← Nat.pow_succ', Nat.succ_eq_add_one, Nat.sub_add_cancel positive]
  rw [sfld, fld_eq_extract, signed, BitVec.toInt_eq_toNat_cond, halves]
  simp only [Nat.mul_lt_mul_left Nat.two_pos]
  rw [← halves]
  push_cast
  rfl

theorem decodeTrim_eq (w : Word) :
    decodeTrim w = (⟨(w.extractLsb' 0 16).toInt, (w.extractLsb' 16 11).toInt⟩, w.getLsbD 31) := by
  rw [decodeTrim, sfld_eq_toInt w 0 (by decide), sfld_eq_toInt w 16 (by decide)]
  rfl

theorem inRange_iff (t : Trim) :
    t.inRange = true ↔ (-2000 ≤ t.phase ∧ t.phase ≤ 2000) ∧ -1000 ≤ t.paste ∧ t.paste ≤ 1000 := by
  simp only [Trim.inRange, decide_eq_true_eq, and_assoc]

/-- A station that takes a trim: active at once with apply-now, pending without. -/
def trimmed (t : Trim × Bool) (st : Station) : Station :=
  if t.2 then { st with trim := t.1, pendingTrim := none } else { st with pendingTrim := some t.1 }

section Trims
variable {k : Fin 16} {w : Word} {b : Blocks}

theorem takeTrim_taken (mounted : b.stations.station[k].mount.mounted = true) (ok : (decodeTrim w).1.inRange = true) :
    takeTrim k w b = (modStation k (trimmed (decodeTrim w)) b).modStations
      fun s => { s with trimsTaken := inc16 s.trimsTaken } := by
  have mounted' : (b.stationOf k).mount.mounted = true := mounted
  simp only [takeTrim, mounted', ok, Bool.not_true, Bool.false_eq_true, if_false]
  rfl

theorem takeTrim_refused (bad : b.stations.station[k].mount.mounted = false ∨ ¬ (decodeTrim w).1.inRange = true) :
    takeTrim k w b = raise .mountRefused (screenSource k) (b.modStations fun s => { s with
      trimsRefused := inc16 s.trimsRefused
      lastRefusal := some (if b.stations.station[k].mount.mounted = false then .trimUnmounted else .trimRange,
        screenSource k) }) := by
  cases mounted : b.stations.station[k].mount.mounted with
  | false =>
    have mounted' : (b.stationOf k).mount.mounted = false := mounted
    simp only [takeTrim, mounted']
    rfl
  | true =>
    have mounted' : (b.stationOf k).mount.mounted = true := mounted
    have outside : (decodeTrim w).1.inRange = false := Bool.eq_false_iff.mpr (bad.resolve_left (by rw [mounted]; decide))
    simp only [takeTrim, mounted', outside]
    rfl

/-- A trim that is taken raises nothing, and is active or pending in its station (R111). -/
theorem takeTrim_taken_effect (mounted : b.stations.station[k].mount.mounted = true)
    (ok : (decodeTrim w).1.inRange = true) : (takeTrim k w b).causes = b.causes ∧
      (takeTrim k w b).stations.station[k] = trimmed (decodeTrim w) b.stations.station[k] ∧
      (takeTrim k w b).stations.trimsTaken = inc16 b.stations.trimsTaken := by
  rw [takeTrim_taken mounted ok]
  exact ⟨rfl, modStation_same b k _, rfl⟩

/-- A trim that is refused leaves its station, is counted and raises MOUNT_REFUSED (R111). -/
theorem takeTrim_refused_effect (live : b.live = true)
    (bad : b.stations.station[k].mount.mounted = false ∨ ¬ (decodeTrim w).1.inRange = true) :
    (takeTrim k w b).stations.station[k] = b.stations.station[k] ∧
      (takeTrim k w b).stations.trimsRefused = inc16 b.stations.trimsRefused ∧
      Raised .mountRefused (k.val + 1) .report b.causes (takeTrim k w b).causes ∧
      (takeTrim k w b).stations.lastRefusal =
        some (if b.stations.station[k].mount.mounted = false then .trimUnmounted else .trimRange, k.val + 1) := by
  rw [takeTrim_refused bad, raise, raiseAt_stations]
  exact ⟨rfl, rfl, raiseAt_raised .mountRefused (k.val + 1) .report _ live, rfl⟩

/-- A trim, taken or refused, leaves the track, the cache, the cues and the other stations. -/
theorem takeTrim_others (k : Fin 16) (w : Word) (b : Blocks) : (takeTrim k w b).track = b.track ∧
    (takeTrim k w b).cache = b.cache ∧ (takeTrim k w b).cues = b.cues ∧
    ∀ j : Fin 16, j ≠ k → (takeTrim k w b).stations.station[j] = b.stations.station[j] := by
  by_cases good : b.stations.station[k].mount.mounted = true ∧ (decodeTrim w).1.inRange = true
  · rw [takeTrim_taken good.1 good.2]
    exact ⟨rfl, rfl, rfl, fun j other => modStation_other b other _⟩
  · rw [takeTrim_refused (by simpa [or_iff_not_imp_left] using good)]
    refine ⟨raiseAt_track_other _ _ _ _ (by decide), raiseAt_cache .., raiseAt_cues .., fun j _ => ?_⟩
    rw [raise, raiseAt_stations]
    rfl

end Trims

/-- A trim word completes with its judgement on the image that it has entered. -/
theorem trim_leaves {s : State} {w : CarriedWord} {v : WriteWord} {k : Fin 16}
    (carries : CarriesWrite s w v .mount (4 * k.val + 3)) (full : v.enables = 0xF#4) (decision : Decision) :
    FollowsButPath ((s.setMem (s.mem.writeWord w.addr v.enables v.value)).setBlk
      (takeTrim k v.value (applyImage (4 * k.val + 3) v (wordBlocks s w)))) (completeWord .trim decision trimEffect s) := by
  obtain ⟨carried, _, word, _, place⟩ := id carries
  have follows := (completeWord_spec (decision := decision) (effect := trimEffect) carried
    (wordClass_of_carries carries)).1
  have place' : w.place s.ctx (wordBlocks s w) = (.mount, 4 * k.val + 3) := place
  have screen : screenOf ((4 * k.val + 3) / 4 + 1) = some k := by
    rw [show (4 * k.val + 3) / 4 = k.val by omega, screenOf_succ]
  have effect : trimEffect s.ctx w (wordBlocks s w) =
      takeTrim k v.value (applyImage (4 * k.val + 3) v (wordBlocks s w)) := by
    rw [trimEffect, place', word, screen]
    dsimp only
    rw [mountEffect_carries carries]
  rwa [effect, carryWord_of_carries carries, classOf_trim full] at follows

/-- Settles O40: the bytes that a mount write changes, and a trim taken or refused. -/
theorem mountWritesAndTrims : Obligations.MountWritesAndTrims := by
  refine ⟨⟨fun old w i lane => mergeWord_lane old w lane, fun s w v off decision inside carries plain =>
    ⟨_, rfl, mountWrite_leaves inside carries plain decision⟩⟩, fun s w v k decision carries full => ?_⟩
  obtain ⟨_, motion, mem, _, causes, track, cache, cues, stations, _⟩ := trim_leaves carries full decision
  obtain ⟨_, _, _, _, place⟩ := id carries
  have live : s.blk.live = true := live_of_window place (by decide) (by decide)
  obtain ⟨image, applied⟩ : ∃ image, applyImage (4 * k.val + 3) v (wordBlocks s w) =
      (wordBlocks s w).setStations { s.blk.stations with image := image } := ⟨_, applyImage_eq (by omega) v _⟩
  rw [applied] at causes track cache cues stations
  have others := takeTrim_others k v.value ((wordBlocks s w).setStations { s.blk.stations with image := image })
  have taken := takeTrim_taken_effect (k := k) (w := v.value)
    (b := (wordBlocks s w).setStations { s.blk.stations with image := image })
  have refused := takeTrim_refused_effect (k := k) (w := v.value)
    (b := (wordBlocks s w).setStations { s.blk.stations with image := image }) live
  rw [inRange_iff, decodeTrim_eq] at taken refused
  obtain ⟨track', cache', cues', other⟩ := others
  refine ⟨_, rfl, mem, track.trans track', cache.trans cache', cues.trans cues', motion, fun j apart => ?_,
    fun mounted ok now => ?_, fun mounted ok later => ?_, fun bad => ?_⟩
  · rw [stations]
    exact other j apart
  · rw [causes, stations]
    obtain ⟨same, active, counted⟩ := taken mounted ok
    exact ⟨same, active.trans (by rw [trimmed, now]; rfl), counted⟩
  · rw [causes, stations]
    obtain ⟨same, pending, counted⟩ := taken mounted ok
    exact ⟨same, pending.trans (by rw [trimmed, later]; rfl), counted⟩
  · rw [causes, stations]
    exact refused bad

end Sys2Proof.Machine
end

section
/-! A screen's lift machine enters FAULT (R104, R106, R107). -/

namespace Sys2Proof.Machine

/-! ### The want of a screen in FAULT (R102, R103) -/

/-- An evaluation of a want changes of the stations the records alone. -/
theorem evaluateWant_stations (x : Ctx) (b : Blocks) (k : Fin 16) :
    (evaluateWant x b k).stations = { b.stations with station := (evaluateWant x b k).stations.station } := by
  unfold evaluateWant
  dsimp only
  split <;> rfl

theorem wantOf_fault {x : Ctx} {b : Blocks} {k : Fin 16} {reason : FaultReason}
    (fault : b.stations.station[k].lift = .fault reason) : wantOf x b k = .up := by
  have fault' : (b.stationOf k).lift = .fault reason := fault
  simp [wantOf, fault', LiftState.isFault]

theorem liftWant_fault {n : Nat} {w : Want} {st : Station} {reason : FaultReason} (fault : st.lift = .fault reason) :
    liftWant n w st = st := by
  unfold liftWant
  rw [fault]

/-- A screen in FAULT is not wanted, and its machine stays. -/
theorem evaluateWant_fault {x : Ctx} {b : Blocks} {k : Fin 16} {reason : FaultReason}
    (fault : b.stations.station[k].lift = .fault reason) :
    (evaluateWant x b k).stations.station[k] = { b.stations.station[k] with want := .up } := by
  unfold evaluateWant
  dsimp only
  rw [wantOf_fault fault]
  split
  · rename_i same
    exact congrArg (fun w => { b.stations.station[k] with want := w }) same.symm
  · rw [modStation_same]
    exact liftWant_fault fault

/-! ### The entry to FAULT -/

/-- The machine of screen `k` has entered FAULT from the blocks `a` with the stations `t`: a cause is raised, the screen is
not wanted, and nothing else of the stations, the track and the field line has changed. -/
structure FaultTaken (k : Fin 16) (kind : CauseKind) (level : Level) (a : Blocks) (t : Stations) (c : Blocks) : Prop where
  stations : c.stations = { t with station := c.stations.station }
  station : c.stations.station[k] = { t.station[k] with want := .up }
  other : ∀ j : Fin 16, j ≠ k → c.stations.station[j] = t.station[j]
  raised : Raised kind (k.val + 1) level a.causes c.causes
  track : c.track = a.track
  field : c.field = a.field

theorem fault_taken {b : Blocks} {t : Stations} {k : Fin 16} {kind : CauseKind} {reason : FaultReason}
    (live : b.live = true) (known : kind ≠ .trackUncertain) (fault : t.station[k].lift = .fault reason) (x : Ctx)
    (level : Level) :
    FaultTaken k kind level b t (evaluateWant x (raiseAt kind (screenSource k) level (b.setStations t)) k) := by
  have stations : (raiseAt kind (screenSource k) level (b.setStations t)).stations = t := raiseAt_stations ..
  have only := evaluateWant_eq x (raiseAt kind (screenSource k) level (b.setStations t)) k
  constructor
  · rw [evaluateWant_stations, stations]
  · rw [evaluateWant_fault (by rw [stations]; exact fault), stations]
  · intro j other
    rw [evaluateWant_other x _ other, stations]
  · rw [only]
    exact raiseAt_raised kind (screenSource k) level (b.setStations t) live
  · rw [only]
    exact raiseAt_track_other kind (screenSource k) level (b.setStations t) known
  · rw [only]
    exact raiseAt_field ..

/-- The stations after the machine of screen `k` has entered FAULT. -/
def faulted (k : Fin 16) (reason : FaultReason) (t : Stations) : Stations :=
  { t with station := Bank.modify t.station k (enterFault reason) }

theorem faulted_same (k : Fin 16) (reason : FaultReason) (t : Stations) :
    (faulted k reason t).station[k] = { t.station[k] with lift := .fault reason, liftTimer := none } := by
  simp [faulted, Bank.modify, enterFault]

theorem faulted_other {k j : Fin 16} (other : j ≠ k) (reason : FaultReason) (t : Stations) :
    (faulted k reason t).station[j] = t.station[j] :=
  set_other _ _ other

theorem stationLost_taken {b : Blocks} (live : b.live = true) (x : Ctx) (k : Fin 16) :
    FaultTaken k .moduleLost (lossLevel b.stations.station[k].lift) b (faulted k .moduleLost b.stations)
      (stationLost x k b) :=
  fault_taken (kind := .moduleLost) live (by decide) (congrArg Station.lift (faulted_same ..)) x _

theorem liftUnexpected_taken {b : Blocks} (live : b.live = true) (x : Ctx) (k : Fin 16) :
    FaultTaken k .liftFault .trip b
      { faulted k .unexpected b.stations with liftFaults := inc16 b.stations.liftFaults } (liftUnexpected x k b) :=
  fault_taken (kind := .liftFault) live (by decide) (congrArg Station.lift (faulted_same k .unexpected _)) x .trip
    (t := { faulted k .unexpected b.stations with liftFaults := inc16 b.stations.liftFaults })

theorem liftExpiry_taken {b : Blocks} (live : b.live = true) (x : Ctx) {k : Fin 16}
    (moving : b.stations.station[k].lift = .lowering ∨ b.stations.station[k].lift = .lifting) :
    FaultTaken k .liftTimeout .trip b
      { faulted k .timeout b.stations with liftTimeouts := inc16 b.stations.liftTimeouts } (liftExpiry x k b) := by
  have taken := fault_taken (kind := .liftTimeout) live (by decide) (congrArg Station.lift (faulted_same k .timeout _)) x .trip
    (t := { faulted k .timeout b.stations with liftTimeouts := inc16 b.stations.liftTimeouts })
  have moving' : (b.stationOf k).lift = .lowering ∨ (b.stationOf k).lift = .lifting := moving
  unfold liftExpiry
  rcases moving' with l | l <;> rw [l] <;> exact taken

end Sys2Proof.Machine
end

section
/-! Misses of a module, and the end of an exchange (R107, R145, R147 to R151, R153). -/

namespace Sys2Proof.Machine

/-! ### The state of a module (R149) -/

section Module
variable (m : Module)

theorem missed_online (online : m.online = true) (few : m.misses < 2) :
    m.missed = { m with misses := m.misses + 1 } := by
  simp [Module.missed, online, few]

theorem missed_third (online : m.online = true) (two : m.misses = 2) :
    m.missed = { m with online := false, misses := 3, goods := 0, faultMarker := false } := by
  simp [Module.missed, online, two]

theorem missed_lost (lost : m.online = false) : m.missed = { m with goods := 0 } := by
  simp [Module.missed, lost]

theorem answered_online (online : m.online = true) : m.answered = { m with misses := 0 } := by
  simp [Module.answered, online]

theorem answered_first (lost : m.online = false) (none : m.goods = 0) : m.answered = { m with goods := 1 } := by
  simp [Module.answered, lost, none]

theorem answered_second (lost : m.online = false) (one : m.goods = 1) :
    m.answered = { m with online := true, goods := 2, misses := 0 } := by
  simp [Module.answered, lost, one]

/-- The totals of a miss, and its reason (R147). -/
def Module.tallied (r : MissReason) (m : Module) : Module :=
  { m with totalMisses := inc16 m.totalMisses, lastMiss := some r }

/-- The totals stand apart from the state. -/
theorem missed_tallied (r : MissReason) : (m.tallied r).missed = m.missed.tallied r := by
  unfold Module.missed Module.tallied
  dsimp only
  split
  · split <;> rfl
  · rfl

end Module

/-! ### A miss (R147, R150) -/

/-- The module's entry after a miss, as its configuration says (log 29). -/
def missedEntry (present : Bool) (r : MissReason) (m : Module) : Module :=
  (if present then m.missed else m).tallied r

/-- The field line after a miss of a module. -/
def missedField (present : Bool) (a : Fin 24) (r : MissReason) (f : FieldLine) : FieldLine :=
  { f with
    module := f.module.set a (missedEntry present r f.module[a])
    missCounts := f.missCounts.set r.index (inc16 f.missCounts[r.index]) }

/-- A miss makes a configured module LOST. -/
def losesModule (x : Ctx) (b : Blocks) (a : Fin 24) : Bool :=
  configured x b a && b.field.module[a].online && !b.field.module[a].missed.online

/-- A miss counted, before the module's state moves. -/
def tallied (a : Fin 24) (r : MissReason) (b : Blocks) : Blocks :=
  modModule a (Module.tallied r) (b.modField fun f => { f with missCounts := Bank.modify f.missCounts r.index inc16 })

theorem tallied_module (a : Fin 24) (r : MissReason) (b : Blocks) :
    (tallied a r b).field.module[a] = b.field.module[a].tallied r := modModule_same ..

theorem tallied_missed (a : Fin 24) (r : MissReason) (b : Blocks) :
    modModule a Module.missed (tallied a r b) = b.setField (missedField true a r b.field) := by
  have twice : Bank.modify (Bank.modify b.field.module a (Module.tallied r)) a Module.missed =
      b.field.module.set a (missedEntry true r b.field.module[a]) := by
    simp [Bank.modify, missedEntry, missed_tallied]
  exact congrArg (fun v => b.setField { missedField true a r b.field with module := v }) twice

/-- Everything a miss does: the counts, the module's entry, and the hand-over of a loss. -/
theorem countMiss_eq (x : Ctx) (a : Fin 24) (r : MissReason) (b : Blocks) : countMiss x a r b =
    if losesModule x b a then handLoss x a (b.setField (missedField (configured x b a) a r b.field))
    else b.setField (missedField (configured x b a) a r b.field) := by
  have unfolded : countMiss x a r b = if configured x b a then
      if (tallied a r b).field.module[a].online && !(modModule a Module.missed (tallied a r b)).field.module[a].online
      then handLoss x a (modModule a Module.missed (tallied a r b)) else modModule a Module.missed (tallied a r b)
    else tallied a r b := rfl
  have was : (tallied a r b).field.module[a].online = b.field.module[a].online := by
    rw [tallied_module]
    rfl
  have now : (modModule a Module.missed (tallied a r b)).field.module[a].online = b.field.module[a].missed.online := by
    rw [modModule_same, tallied_module, missed_tallied]
    rfl
  rw [unfolded, was, now, tallied_missed, losesModule]
  cases configured x b a
  · rfl
  · simp only [Bool.true_and, if_true]

theorem handLoss_field (x : Ctx) (a : Fin 24) (b : Blocks) : (handLoss x a b).field = b.field := by
  unfold handLoss
  split
  · unfold stationLost
    dsimp only
    rw [evaluateWant_eq]
    exact raiseAt_field ..
  · exact raiseAt_field ..

theorem countMiss_field (x : Ctx) (a : Fin 24) (r : MissReason) (b : Blocks) :
    (countMiss x a r b).field = missedField (configured x b a) a r b.field := by
  rw [countMiss_eq]
  split
  · exact handLoss_field ..
  · rfl

/-! ### The end of an exchange (R143, R153) -/

/-- A link cycle's bookkeeping: the field line alone, and of it neither the modules, nor the counts of misses, nor the
reply timer. -/
structure CycleKeeps (a b : Blocks) : Prop where
  stations : b.stations = a.stations
  causes : b.causes = a.causes
  module : b.field.module = a.field.module
  missCounts : b.field.missCounts = a.field.missCounts
  replyTimer : b.field.replyTimer = a.field.replyTimer

/-- An exchange in progress waits for quiet. -/
def QuietAtMost (b : Blocks) : Prop := ∀ e, b.field.exchange = some e → e.phase = .quiet

theorem startCycle_next (x : Ctx) (b : Blocks) : CycleKeeps b (startCycle x b) ∧ QuietAtMost (startCycle x b) := by
  unfold startCycle QuietAtMost
  dsimp only
  split
  · exact ⟨⟨rfl, rfl, rfl, rfl, rfl⟩, by simp [beginExchange]⟩
  · exact ⟨⟨rfl, rfl, rfl, rfl, rfl⟩, by simp⟩

theorem endCycle_next (x : Ctx) (elapsed : Nat) (b : Blocks) :
    CycleKeeps b (endCycle x elapsed b) ∧ QuietAtMost (endCycle x elapsed b) := by
  unfold endCycle
  dsimp only
  split
  · obtain ⟨⟨h1, h2, h3, h4, h5⟩, quiet⟩ := startCycle_next x ((b.modField fun f =>
      { f with exchange := none, lastDuration := min 65535 elapsed }).modField fun f =>
        { f with startOwed := false, overruns := inc16 f.overruns })
    exact ⟨⟨h1, h2, h3, h4, h5⟩, quiet⟩
  · exact ⟨⟨rfl, rfl, rfl, rfl, rfl⟩, by simp [QuietAtMost]⟩

/-- The end of an exchange toggles the module's selector; what follows is the next exchange, or the cycle's end. -/
theorem endExchange_next (x : Ctx) (a : Fin 24) (elapsed : Nat) (b : Blocks) :
    CycleKeeps (toggleSelector a b) (endExchange x a elapsed b) ∧ QuietAtMost (endExchange x a elapsed b) := by
  unfold endExchange
  dsimp only
  split
  · exact ⟨⟨rfl, rfl, rfl, rfl, rfl⟩, by simp [QuietAtMost, beginExchange]⟩
  · exact endCycle_next ..

/-! ### An exchange that ends in a miss -/

/-- The state of a module stands apart from its total and its selector. -/
theorem missed_outside (m : Module) : m.missed.totalMisses = m.totalMisses ∧ m.missed.selector = m.selector := by
  unfold Module.missed
  split
  · split <;> exact ⟨rfl, rfl⟩
  · exact ⟨rfl, rfl⟩

/-- The module's entry after a miss and the toggle of its selector. -/
theorem toggled_missedEntry (present : Bool) (r : MissReason) (m : Module) :
    { missedEntry present r m with selector := !(missedEntry present r m).selector } =
      { (if present then m.missed else m) with
        totalMisses := inc16 m.totalMisses, lastMiss := some r, selector := !m.selector } := by
  obtain ⟨total, selector⟩ := missed_outside m
  cases present
  · rfl
  · simp only [missedEntry, Module.tallied, if_true, total, selector]

theorem losesModule_iff (x : Ctx) (b : Blocks) (a : Fin 24) : losesModule x b a = true ↔
    configured x b a = true ∧ b.field.module[a].online = true ∧ b.field.module[a].missed.online = false := by
  simp [losesModule, and_assoc]

/-- The level of a loss, state by state (R107). -/
theorem lossLevel_eq (l : LiftState) :
    lossLevel l = if l = .lowering ∨ l = .engaged ∨ l = .lifting then .trip else .hold := by
  cases l <;> simp [lossLevel]

/-- A loss handed to the station of its screen (R107). -/
theorem handLoss_screen {a : Fin 24} {k : Fin 16} (serves : moduleScreen a = some k) (x : Ctx) (b : Blocks) :
    handLoss x a b = stationLost x k b := by
  simp only [handLoss, serves]

/-- A loss of a zone's module (R151). -/
theorem handLoss_zone {a : Fin 24} {z : Fin 8} (serves : moduleZone a = some z) (x : Ctx) (b : Blocks) :
    handLoss x a b = raiseAt .moduleLost (z.val + 17) .hold b := by
  unfold moduleZone at serves
  split at serves
  · rename_i high
    cases serves
    have none : moduleScreen a = none := dif_neg (Nat.not_lt.mpr high)
    simp only [handLoss, none, moduleSource]
    congr 1
    omega
  · cases serves

/-- What an exchange that ends in a miss leaves (log 29). -/
theorem missTaken_of_follows {s t : State} {a : Fin 24} {r : MissReason} {phase : ExchangePhase} {sel : Bool}
    {elapsed : Nat} {f : FieldLine} (module : f.module = s.blk.field.module)
    (missCounts : f.missCounts = s.blk.field.missCounts)
    (follows : FollowsFrom (s.setBlk (missExchange s.ctx ⟨a, phase, sel⟩ r elapsed (s.blk.setField f))) t) :
    MissTaken s a r t ∧ t.blk.field.replyTimer = f.replyTimer := by
  obtain ⟨⟨cfg, motion, mem, _, causes, _, _, _, stations, _, field, _⟩, _⟩ := follows
  obtain ⟨keeps, quiet⟩ := endExchange_next s.ctx a elapsed (countMiss s.ctx a r (s.blk.setField f))
  have missed : (countMiss s.ctx a r (s.blk.setField f)).field = missedField (configured s.ctx s.blk a) a r f :=
    countMiss_field ..
  have loses : losesModule s.ctx (s.blk.setField f) a = losesModule s.ctx s.blk a := by
    simp only [losesModule, Blocks.setField_field, module]
    rfl
  have effect := countMiss_eq s.ctx a r (s.blk.setField f)
  have stations' : t.blk.stations = (countMiss s.ctx a r (s.blk.setField f)).stations := stations.trans keeps.stations
  have causes' : t.blk.causes = (countMiss s.ctx a r (s.blk.setField f)).causes := causes.trans keeps.causes
  rw [loses] at effect
  have entries : t.blk.field.module = (f.module.set a (missedEntry (configured s.ctx s.blk a) r f.module[a])).set a
      { missedEntry (configured s.ctx s.blk a) r f.module[a] with
        selector := !(missedEntry (configured s.ctx s.blk a) r f.module[a]).selector } := by
    rw [field]
    refine keeps.module.trans ?_
    simp [toggleSelector, modModule, Blocks.modField, Bank.modify, missed, missedField]
  refine ⟨⟨?_, ?_, fun j other => ?_, fun live lost => ?_, fun kept => ?_, ?_, mem, motion, cfg⟩, ?_⟩
  · rw [field]
    refine keeps.missCounts.trans ((congrArg FieldLine.missCounts missed).trans ?_)
    simp only [missedField, missCounts]
  · rw [entries, toggled_missedEntry, module]
    simp
  · rw [entries, set_other _ _ other, set_other _ _ other, module]
  · rw [if_pos ((losesModule_iff ..).mpr lost)] at effect
    rw [stations', causes', effect]
    refine ⟨fun k serves => ?_, fun z serves => ?_⟩
    · have taken := stationLost_taken (b := s.blk.setField (missedField (configured s.ctx s.blk a) a r f)) live s.ctx k
      rw [handLoss_screen serves]
      refine ⟨taken.station.trans ?_, ?_⟩
      · rw [faulted_same]
        rfl
      · have raised := taken.raised
        rw [lossLevel_eq] at raised
        exact raised
    · rw [handLoss_zone serves]
      exact raiseAt_raised .moduleLost (z.val + 17) .hold _ live
  · rw [if_neg (mt (losesModule_iff ..).mp kept)] at effect
    rw [stations', causes', effect]
    exact ⟨rfl, rfl⟩
  · rw [field]
    exact quiet
  · rw [field]
    exact keeps.replyTimer.trans (congrArg FieldLine.replyTimer missed :)

/-- Settles O48: the two misses of an exchange, and the state of a module. -/
theorem missesLoseModules : Obligations.MissesLoseModules := by
  refine ⟨fun s a sel elapsed => ⟨fun quiet => ?_, fun awaiting => ?_⟩, fun m => ⟨missed_online m, fun online two => ?_,
    missed_lost m, answered_online m, answered_first m, fun lost one => ?_⟩⟩
  · refine ⟨_, ?_, (missTaken_of_follows (f := s.blk.field) rfl rfl (blockStep_follows
      (fun x b => missExchange x ⟨a, .quiet, sel⟩ .lineBusy elapsed b) s)).1⟩
    simp only [exec, execQuietWaitTimeout, inPhase_of_exchange quiet]
  · refine ⟨_, ?_, missTaken_of_follows (f := { s.blk.field with replyTimer := none }) rfl rfl (blockStep_follows
      (fun x b => missExchange x ⟨a, .awaiting, sel⟩ .noReply elapsed
        (b.modField fun f => { f with replyTimer := none })) s)⟩
    simp only [exec, execReplyTimerExpiry, inPhase_of_exchange awaiting]
  · rw [missed_third m online two]
    exact ⟨rfl, rfl, rfl, rfl⟩
  · rw [answered_second m lost one]
    exact ⟨rfl, rfl, rfl⟩

end Sys2Proof.Machine
end

section
/-! Remount requests: the judgement, and what an accepted one brings into force (R76, R98 to R100, R144, R148). -/

namespace Sys2Proof.Machine

/-! ### The judgement (R99) -/

theorem remountFault_badCheck {close : Word} (bad : validClosing close = false) (x : Ctx) (t : Stations) :
    remountFault x close t = some (.badCheck, 0) := by
  rw [remountFault, bad]
  rfl

theorem remountFault_moving {x : Ctx} {close : Word} (valid : validClosing close = true) (moving : x.motion.state ≠ .halted)
    (t : Stations) : remountFault x close t = some (.moving, 0) := by
  rw [remountFault, valid, if_neg (by decide), if_pos moving]

theorem judgeRemount_refused {x : Ctx} {close : Word} {b : Blocks} {d : MountDetail} {n : Nat}
    (fault : remountFault x close b.stations = some (d, n)) : judgeRemount x close b =
      raise .mountRefused n (b.setStations { b.stations with
        lastRefusal := some (d, n), refusedRemounts := inc16 b.stations.refusedRemounts }) := by
  rw [judgeRemount, fault]
  rfl

theorem judgeRemount_accepted {x : Ctx} {close : Word} {b : Blocks} (sound : remountFault x close b.stations = none) :
    judgeRemount x close b = acceptRemount x (close.extractLsb' 0 16) b := by
  rw [judgeRemount, sound]
  rfl

/-! ### The wants of all stations -/

/-- An evaluation moves of its station the want and the lift machine alone. -/
theorem evaluateWant_same (x : Ctx) (b : Blocks) (k : Fin 16) : ∃ w l n, (evaluateWant x b k).stations.station[k] =
    { b.stations.station[k] with want := w, lift := l, liftTimer := n } := by
  unfold evaluateWant
  dsimp only
  split
  · exact ⟨_, _, _, rfl⟩
  · obtain ⟨l, n, moved⟩ := liftWant_lift b.stations.liftTimeout (wantOf x b k)
      { b.stations.station[k] with want := wantOf x b k }
    exact ⟨_, l, n, (modStation_same b k _).trans moved⟩

theorem evaluateWant_mount (x : Ctx) (b : Blocks) (j k : Fin 16) :
    (evaluateWant x b j).stations.station[k].mount = b.stations.station[k].mount := by
  by_cases own : k = j
  · subst own
    obtain ⟨w, l, n, moved⟩ := evaluateWant_same x b k
    rw [moved]
  · rw [evaluateWant_other x b own]

/-- An evaluation of wants leaves the mount data, and all of the stations but their records. -/
structure WantsOnly (t u : Stations) : Prop where
  rest : u = { t with station := u.station }
  mount : ∀ k : Fin 16, u.station[k].mount = t.station[k].mount

theorem evaluateWants_only (x : Ctx) (b : Blocks) : WantsOnly b.stations (evaluateWants x b).stations := by
  unfold evaluateWants
  induction screens generalizing b with
  | nil => exact ⟨rfl, fun _ => rfl⟩
  | cons j l ih =>
    obtain ⟨rest, mount⟩ := ih (evaluateWant x b j)
    rw [List.foldl_cons]
    refine ⟨?_, fun k => (mount k).trans (evaluateWant_mount x b j k)⟩
    rw [evaluateWant_stations] at rest
    exact rest

/-! ### An accepted remount (R76, R100, R144) -/

/-- The supersession of settings changes the cache alone (R76). -/
theorem supersedeUnmounted_eq (gone : Fin 16 → Bool) (b : Blocks) :
    supersedeUnmounted gone b = b.setCache (supersedeUnmounted gone b).cache := by
  unfold supersedeUnmounted
  generalize cacheEntries.filter _ = l
  induction l generalizing b with
  | nil => rfl
  | cons e l ih =>
    rw [List.foldl_cons, ih]
    rfl

theorem remountStation_mount (new : MountRecord) (st : Station) : (remountStation new st).mount = new := by
  unfold remountStation
  dsimp only
  split
  · split
    · rfl
    · split <;> rfl
  · rfl

/-- The module entry of a screen at a remount (R144, R148). -/
theorem remountModules_module {a : Fin 24} {k : Fin 16} (serves : moduleScreen a = some k) (t : Stations) (f : FieldLine) :
    (remountModules t f).module[a] =
      if (t.imageRecord k).mounted = t.station[k].mount.mounted then f.module[a] else f.module[a].reconfigured := by
  unfold moduleScreen at serves
  split at serves
  · rename_i low
    cases serves
    exact (tabulate_get _ a).trans (dif_pos low)
  · cases serves

theorem remountModules_phase (t : Stations) (f : FieldLine) (k : Fin 16) : (remountModules t f).phase[k] =
    if (t.imageRecord k).mounted = t.station[k].mount.mounted then f.phase[k] else (t.imageRecord k).phaseData :=
  tabulate_get _ k

/-- What an accepted remount does to each block that it reaches. -/
structure Remounted (generation : BitVec 16) (a b : Blocks) : Prop where
  stations : WantsOnly (remountStations generation a.stations) b.stations
  field : b.field = remountModules a.stations a.field
  causes : b.causes = a.causes

theorem acceptRemount_remounted (x : Ctx) (generation : BitVec 16) (b : Blocks) :
    Remounted generation b (acceptRemount x generation b) := by
  have superseded := supersedeUnmounted_eq (unmounts b.stations)
    ((b.modStations (remountStations generation)).modField (remountModules b.stations))
  have wants := evaluateWants_only x (supersedeUnmounted (unmounts b.stations)
    ((b.modStations (remountStations generation)).modField (remountModules b.stations)))
  unfold acceptRemount
  dsimp only
  constructor
  · rw [superseded] at wants ⊢
    exact wants
  · rw [evaluateWants_eq, superseded]
    rfl
  · rw [evaluateWants_causes, superseded]
    rfl

theorem Remounted.mount {generation : BitVec 16} {a b : Blocks} (h : Remounted generation a b) (k : Fin 16) :
    b.stations.station[k].mount = a.stations.imageRecord k := by
  rw [h.stations.mount]
  exact (congrArg Station.mount (tabulate_get _ k)).trans (remountStation_mount ..)

/-- A request, accepted or refused, leaves the image it is judged on, and the track. -/
theorem judgeRemount_keeps (x : Ctx) (close : Word) (b : Blocks) :
    (judgeRemount x close b).stations.image = b.stations.image ∧ (judgeRemount x close b).track = b.track := by
  cases fault : remountFault x close b.stations with
  | some f =>
    rw [judgeRemount_refused fault, raise, raiseAt_stations]
    exact ⟨rfl, raiseAt_track_other _ _ _ _ (by decide)⟩
  | none =>
    rw [judgeRemount_accepted fault]
    refine ⟨?_, ?_⟩
    · rw [(acceptRemount_remounted ..).stations.rest]
      rfl
    · rw [acceptRemount, evaluateWants_track, supersedeUnmounted_eq]
      rfl

/-! ### The request (R98, R99) -/

theorem classOf_remount {v : WriteWord} (full : v.enables = 0xF#4) (nonzero : v.value ≠ 0) (b : Blocks) :
    classOf b v (.mount, 95) = .remount :=
  if_pos ⟨rfl, decide_eq_true ⟨full, nonzero⟩⟩

/-- A remount request completes with its judgement on the image that the closing word has entered. -/
theorem remount_leaves {s : State} {w : CarriedWord} {v : WriteWord} (carries : CarriesWrite s w v .mount 95)
    (full : v.enables = 0xF#4) (nonzero : v.value ≠ 0) (decision : Decision) :
    FollowsButPath ((s.setMem (s.mem.writeWord w.addr v.enables v.value)).setBlk (judgeRemount s.ctx v.value
      ((wordBlocks s w).setStations { s.blk.stations with image := s.blk.stations.image.set 95 v.value })))
      (completeWord .remount decision remountEffect s) := by
  obtain ⟨carried, _, word, _⟩ := id carries
  have follows := (completeWord_spec (decision := decision) (effect := remountEffect) carried
    (wordClass_of_carries carries)).1
  have effect : remountEffect s.ctx w (wordBlocks s w) = judgeRemount s.ctx v.value
      ((wordBlocks s w).setStations { s.blk.stations with image := s.blk.stations.image.set 95 v.value }) := by
    rw [remountEffect, word]
    dsimp only
    rw [mountEffect_carries carries, applyImage_eq (by decide), mergeWord_full _ full]
    rfl
  rwa [effect, carryWord_of_carries carries, classOf_remount full nonzero] at follows

/-- A word of the image, read as a list. -/
theorem wordAt_toList {n : Nat} (v : Bank Word n) {i : Nat} (inside : i < n) : wordAt v.toList i = v[i] := by
  simp [wordAt, inside]

/-- What a refused request leaves (R99). -/
theorem refusedRemount_of_follows {u t : State} {x : Ctx} {close : Word} {b : Blocks} {d : MountDetail} {n : Nat}
    (live : b.live = true) (fault : remountFault x close b.stations = some (d, n))
    (follows : FollowsButPath (u.setBlk (judgeRemount x close b)) t) :
    t.blk.stations = { b.stations with
      lastRefusal := some (d, n), refusedRemounts := inc16 b.stations.refusedRemounts } ∧
    Raised .mountRefused n .report b.causes t.blk.causes ∧ t.blk.field = b.field ∧ t.blk.cache = b.cache := by
  obtain ⟨_, _, _, _, causes, _, cache, _, stations, _, field, _⟩ := follows
  rw [judgeRemount_refused fault] at causes cache stations field
  refine ⟨stations.trans (raiseAt_stations ..), ?_, field.trans (raiseAt_field ..), cache.trans (raiseAt_cache ..)⟩
  rw [causes]
  exact raiseAt_raised .mountRefused n .report (b.setStations _) live

/-- What an accepted request leaves (R100, R148, log 56). -/
theorem acceptedRemount_of_follows {u t : State} {x : Ctx} {close : Word} {b : Blocks}
    (sound : remountFault x close b.stations = none)
    (follows : FollowsButPath (u.setBlk (judgeRemount x close b)) t) : Remounted (close.extractLsb' 0 16) b t.blk := by
  obtain ⟨_, _, _, _, causes, _, _, _, stations, _, field, _⟩ := follows
  rw [judgeRemount_accepted sound] at causes stations field
  have remounted := acceptRemount_remounted x (close.extractLsb' 0 16) b
  constructor
  · rw [stations]
    exact remounted.stations
  · exact field.trans remounted.field
  · exact causes.trans remounted.causes

/-- Settles O41: the judgement of a remount request, and what it leaves, refused or accepted. -/
theorem remountsAreJudged : Obligations.RemountsAreJudged := by
  intro s w v decision carries full nonzero
  obtain ⟨_, _, _, _, place⟩ := id carries
  have live : s.blk.live = true := live_of_window place (by decide) (by decide)
  have follows := remount_leaves carries full nonzero decision
  have keeps := judgeRemount_keeps s.ctx v.value
    ((wordBlocks s w).setStations { s.blk.stations with image := s.blk.stations.image.set 95 v.value })
  obtain ⟨cfg, motion, mem, _, _, track, _, _, stations, _⟩ := id follows
  refine ⟨_, rfl, mem, ?_, motion, cfg, track.trans keeps.2, fun bad => remountFault_badCheck bad _ _,
    fun valid moving => remountFault_moving valid moving _,
    fun d n fault => refusedRemount_of_follows (b := (wordBlocks s w).setStations _) live fault follows, fun sound => ?_⟩
  · rw [stations]
    exact keeps.1
  · have accepted := acceptedRemount_of_follows (b := (wordBlocks s w).setStations _) sound follows
    have mounts := accepted.mount
    obtain ⟨⟨rest, _⟩, field, causes⟩ := accepted
    refine ⟨?_, ?_, causes, ?_, ?_, fun k => ⟨mounts k, ?_, ?_, ?_⟩⟩
    · rw [rest]
      rfl
    · rw [rest]
      rfl
    · rw [rest, ← wordAt_toList _ (by decide), ← fld_eq_extract]
      rfl
    · rw [rest, ← wordAt_toList _ (by decide), ← fld_eq_extract]
      rfl
    · intro same
      rw [field]
      refine ⟨(remountModules_phase ..).trans (if_pos same), fun a serves => ?_⟩
      exact (remountModules_module serves ..).trans (if_pos same)
    · intro on off
      rw [field]
      exact (remountModules_phase ..).trans (if_neg fun same => absurd (on.symm.trans (same.trans off)) (by decide))
    · intro changed a serves
      rw [field]
      exact (remountModules_module serves ..).trans (if_neg changed)

end Sys2Proof.Machine
end

section
/-! A screen's want and its lift machine (R102 to R106). -/

namespace Sys2Proof.Machine

/-! ### The want (R102, R103) -/

theorem inSpan_eq_false (m : MountRecord) (ranges : List (Nat × Nat)) (f : Nat) :
    inSpan m ranges f = false ↔ ∀ r ∈ ranges, ¬ (r.1 ≤ f + m.lead ∧ f < r.2 + m.lag) := by
  simp [inSpan]

/-- The unit under a screen is to be printed: what it reads of the station, the track and the cache. -/
theorem printsHere_iff_bind (x : Ctx) (b : Blocks) (k : Fin 16) : printsHere x b k = true ↔
    ∃ q f v, b.stations.station[k].holding = .segment q ∧ stationCoordinate x k = some f ∧
      (b.track.find q).bind (segSetting b.cache) = some v ∧ v.engages k = true ∧
      b.stations.station[k].override = none ∧ inSpan b.stations.station[k].mount (seamRanges x.cfg.seamLength b.track) f = false := by
  unfold printsHere
  dsimp only [Blocks.stationOf]
  cases holding : b.stations.station[k].holding with
  | gap | before => simp
  | segment q =>
    cases place : stationCoordinate x k with
    | none => simp
    | some f =>
      cases found : b.track.find q with
      | none => simp [found]
      | some g =>
        cases setting : segSetting b.cache g with
        | none => simp [found, setting]
        | some v => simp [found, setting, and_comm, and_left_comm]

theorem printsHere_iff (x : Ctx) (b : Blocks) (k : Fin 16) : printsHere x b k = true ↔
    ∃ q f g v, b.stations.station[k].holding = .segment q ∧ coordinate x.motion.h x.cfg.screenOffset[k] = some f ∧
      b.track.find q = some g ∧ segSetting b.cache g = some v ∧ v.engages k = true ∧
      b.stations.station[k].override = none ∧ ∀ r ∈ seamRanges x.cfg.seamLength b.track,
        ¬ (r.1 ≤ f + b.stations.station[k].mount.lead ∧ f < r.2 + b.stations.station[k].mount.lag) := by
  rw [printsHere_iff_bind]
  constructor
  · rintro ⟨q, f, v, holding, place, setting, engages, free, clear⟩
    obtain ⟨g, found, setting⟩ := Option.bind_eq_some_iff.mp setting
    exact ⟨q, f, g, v, holding, place, found, setting, engages, free, (inSpan_eq_false ..).mp clear⟩
  · rintro ⟨q, f, g, v, holding, place, found, setting, engages, free, clear⟩
    exact ⟨q, f, v, holding, place, Option.bind_eq_some_iff.mpr ⟨g, found, setting⟩, engages, free,
      (inSpan_eq_false ..).mpr clear⟩

theorem isFault_eq_false (l : LiftState) : l.isFault = false ↔ ∀ reason, l ≠ .fault reason := by
  cases l <;> simp [LiftState.isFault]

theorem wantOf_down_iff (x : Ctx) (b : Blocks) (k : Fin 16) : wantOf x b k = .down ↔
    b.stations.station[k].mount.mounted = true ∧ b.field.module[k.val].online = true ∧
      (∀ reason, b.stations.station[k].lift ≠ .fault reason) ∧ printsHere x b k = true := by
  rw [← isFault_eq_false]
  simp [wantOf, Blocks.stationOf, and_assoc]

/-- A want that has not changed leaves the station. -/
theorem evaluateWant_kept {x : Ctx} {b : Blocks} {k : Fin 16} (kept : wantOf x b k = b.stations.station[k].want) :
    evaluateWant x b k = b :=
  if_pos kept

/-- A change of want goes to the lift machine. -/
theorem evaluateWant_moved {x : Ctx} {b : Blocks} {k : Fin 16} (moved : wantOf x b k ≠ b.stations.station[k].want)
    {st : Station}
    (taken : liftWant b.stations.liftTimeout (wantOf x b k) { b.stations.station[k] with want := wantOf x b k } = st) :
    evaluateWant x b k = b.setStations { b.stations with station := b.stations.station.set k st } := by
  rw [← taken]
  exact if_neg moved

/-- A change of a station is what it makes of the station's record. -/
theorem modStation_congr {k : Fin 16} {f g : Station → Station} {b : Blocks}
    (same : f b.stations.station[k] = g b.stations.station[k]) : modStation k f b = modStation k g b :=
  congrArg (fun st => b.setStations { b.stations with station := b.stations.station.set k st }) same

/-! ### Lift reports (R104, R105) -/

section Report
variable {x : Ctx} {b : Blocks} {k : Fin 16} {r : LiftPosition}

theorem liftReport_lowering (lift : b.stations.station[k].lift = .lowering) : liftReport x k r b =
    if r = .down then modStation k (fun st => { st with lift := .engaged, liftTimer := none }) b else b := by
  have lift' : (b.stationOf k).lift = .lowering := lift
  unfold liftReport
  rw [lift']
  cases r <;> rfl

theorem liftReport_lifting (lift : b.stations.station[k].lift = .lifting) : liftReport x k r b =
    if r = .up then
      if b.stations.station[k].want = .down then
        modStation k (fun st => { st with lift := .lowering, liftTimer := some b.stations.liftTimeout }) b
      else modStation k (fun st => { st with lift := .lifted, liftTimer := none }) b
    else b := by
  have lift' : (b.stationOf k).lift = .lifting := lift
  unfold liftReport
  rw [lift']
  cases r with
  | up =>
    simp only [if_true]
    split
    · exact modStation_congr (if_pos ‹_›)
    · exact modStation_congr (if_neg ‹_›)
  | down | moving => rfl

/-- The report that fits the state at rest changes nothing. -/
theorem liftReport_fits (rest : (b.stations.station[k].lift = .lifted ∧ r = .up) ∨
    (b.stations.station[k].lift = .engaged ∧ r = .down)) : liftReport x k r b = b := by
  unfold liftReport
  rcases rest with ⟨lift, rfl⟩ | ⟨lift, rfl⟩
  · rw [show (b.stationOf k).lift = .lifted from lift]
  · rw [show (b.stationOf k).lift = .engaged from lift]

/-- Any other report at rest is unexpected. -/
theorem liftReport_unexpected (rest : (b.stations.station[k].lift = .lifted ∧ r ≠ .up) ∨
    (b.stations.station[k].lift = .engaged ∧ r ≠ .down)) : liftReport x k r b = liftUnexpected x k b := by
  unfold liftReport
  rcases rest with ⟨lift, other⟩ | ⟨lift, other⟩
  · rw [show (b.stationOf k).lift = .lifted from lift]
    cases r with
    | up => contradiction
    | down | moving => rfl
  · rw [show (b.stationOf k).lift = .engaged from lift]
    cases r with
    | down => contradiction
    | up | moving => rfl

/-- UP from an ONLINE module brings a screen out of FAULT. -/
theorem liftReport_fault {reason : FaultReason} (lift : b.stations.station[k].lift = .fault reason) :
    liftReport x k r b = if r = .up ∧ b.field.module[k.val].online = true then
      evaluateWant x (modStation k (fun st => { st with lift := .lifted, liftTimer := none }) b) k else b := by
  have lift' : (b.stationOf k).lift = .fault reason := lift
  unfold liftReport
  rw [lift']
  cases r <;> simp

end Report

/-! ### The lift timer (R106) -/

theorem exec_liftTimerExpiry {s : State} {k : Fin 16} {n : Nat} (running : s.blk.stations.station[k].liftTimer = some n) :
    exec (.liftTimerExpiry k) s = .next (blockStep (fun x b => liftExpiry x k b) s) := by
  have running' : (s.blk.stationOf k).liftTimer = some n := running
  simp only [exec, execLiftTimerExpiry, running']

/-! ### Registration (R113) -/

theorem registration_away {b : Blocks} {k : Fin 16} (away : b.stations.station[k].lift ≠ .engaged) (error : Int) :
    registration k error b = b :=
  if_neg away

theorem registration_engaged {b : Blocks} {k : Fin 16} (engaged : b.stations.station[k].lift = .engaged) (error : Int) :
    (registration k error b).stations.station[k] =
      { b.stations.station[k] with worst := max b.stations.station[k].worst (min 255 error.natAbs), seen := true } ∧
    ∀ q, b.stations.station[k].holding = .segment q → (registration k error b).track =
      modSeg q (fun g => { g with worst := g.worst.set k (max g.worst[k] (min 255 error.natAbs)) }) b.track := by
  have engaged' : (b.stationOf k).lift = .engaged := engaged
  unfold registration
  dsimp only
  rw [if_pos engaged']
  constructor
  · split <;> exact modStation_same b k _
  · intro q holding
    rw [show (b.stationOf k).holding = .segment q from holding]
    rfl

end Sys2Proof.Machine
end

section
/-! A station at an H advance, matter by matter (R101, R108, R110, R115, R116, log 14). -/

namespace Sys2Proof.Machine

/-! ### Changes of the segments of a track -/

/-- What holds of every segment holds after a change that keeps it. -/
theorem forall_modSeg {P : Segment → Prop} {f : Segment → Segment} (keeps : ∀ g, P g → P (f g)) {t : Track}
    (all : ∀ g ∈ t.segs, P g) (q : Nat) : ∀ g ∈ (modSeg q f t).segs, P g := by
  simp only [modSeg, List.mem_map]
  rintro _ ⟨g, held, rfl⟩
  split
  · exact keeps g (all g held)
  · exact all g held

/-- What a change gives holds of the segments of its number. -/
theorem modSeg_gives {P : Segment → Prop} {f : Segment → Segment} (gives : ∀ g, P (f g)) (q : Nat) (t : Track) :
    ∀ g ∈ (modSeg q f t).segs, g.seq = q → P g := by
  simp only [modSeg, List.mem_map]
  rintro _ ⟨g, _, rfl⟩ own
  split
  · exact gives g
  · rename_i other
    rw [if_neg other] at own
    exact absurd own other

theorem forall_modSegs {P : Segment → Prop} {f : Segment → Segment} (keeps : ∀ g, P g → P (f g)) (l : List Nat) {t : Track}
    (all : ∀ g ∈ t.segs, P g) : ∀ g ∈ (l.foldl (fun t q => modSeg q f t) t).segs, P g := by
  induction l generalizing t with
  | nil => exact all
  | cons q l ih => exact ih (forall_modSeg keeps all q)

theorem modSegs_give {P : Segment → Prop} {f : Segment → Segment} (gives : ∀ g, P (f g)) {q : Nat} {l : List Nat}
    (named : q ∈ l) (t : Track) : ∀ g ∈ (l.foldl (fun t q => modSeg q f t) t).segs, g.seq = q → P g := by
  induction l generalizing t with
  | nil => cases named
  | cons p l ih =>
    rcases List.mem_cons.mp named with rfl | later
    · exact forall_modSegs (P := fun g => g.seq = q → P g) (fun g _ _ => gives g) l (modSeg_gives gives q t)
    · exact ih later _

/-! ### The boundary (R101, R116) -/

/-- A station that has taken a new holding (R90, R91). -/
def leaveFor (new : Holding) (st : Station) : Station :=
  { st with
    holding := new, override := keepFor new st.override, pasteHold := keepFor new st.pasteHold, wanted := 0, engaged := 0 }

/-- The mark of the segment that a station leaves. -/
def markLeft (k : Fin 16) (st : Station) (t : Track) : Track :=
  match st.holding with
  | .segment q => modSeg q (setMark k (markOf st.wanted st.engaged)) t
  | .gap | .before => t

section Refresh
variable {x : Ctx} {b : Blocks} {k : Fin 16}

theorem refreshStation_kept (kept : b.stations.station[k].holding = b.track.holdingAt (stationCoordinate x k)) :
    refreshStation x b k = b :=
  if_pos kept

theorem refreshStation_left (left : b.stations.station[k].holding ≠ b.track.holdingAt (stationCoordinate x k)) :
    refreshStation x b k = (modStation k (leaveFor (b.track.holdingAt (stationCoordinate x k))) b).setTrack
      (markLeft k b.stations.station[k] b.track) := by
  have left' : (b.stationOf k).holding ≠ b.track.holdingAt (stationCoordinate x k) := left
  unfold refreshStation markLeft
  dsimp only
  rw [if_neg left']
  simp only [Blocks.stationOf]
  cases b.stations.station[k].holding <;> rfl

theorem refreshStation_station : (refreshStation x b k).stations.station[k] =
    if b.stations.station[k].holding = b.track.holdingAt (stationCoordinate x k) then b.stations.station[k]
    else leaveFor (b.track.holdingAt (stationCoordinate x k)) b.stations.station[k] := by
  split
  · rw [refreshStation_kept ‹_›]
  · rw [refreshStation_left ‹_›]
    exact modStation_same b k _

theorem refreshStation_holding :
    (refreshStation x b k).stations.station[k].holding = b.track.holdingAt (stationCoordinate x k) := by
  rw [refreshStation_station]
  split
  · assumption
  · rfl

theorem refreshStation_lift : (refreshStation x b k).stations.station[k].lift = b.stations.station[k].lift := by
  rw [refreshStation_station]
  split <;> rfl

theorem refreshStation_others : (∀ j : Fin 16, j ≠ k → (refreshStation x b k).stations.station[j] = b.stations.station[j]) ∧
    (refreshStation x b k).stations.seamUnlifted = b.stations.seamUnlifted := by
  by_cases kept : b.stations.station[k].holding = b.track.holdingAt (stationCoordinate x k)
  · rw [refreshStation_kept kept]
    exact ⟨fun _ _ => rfl, rfl⟩
  · rw [refreshStation_left kept]
    exact ⟨fun j other => modStation_other b other _, rfl⟩

theorem setMark_code (k : Fin 16) (code : MarkCode) (g : Segment) : (setMark k code g).marks[k].code = code := by
  simp [setMark, Bank.modify]

/-- The segment left has its mark. -/
theorem refreshStation_marks {q : Nat} (holding : b.stations.station[k].holding = .segment q)
    (left : b.stations.station[k].holding ≠ b.track.holdingAt (stationCoordinate x k)) :
    ∀ g ∈ (refreshStation x b k).track.segs, g.seq = q →
      g.marks[k].code = markOf b.stations.station[k].wanted b.stations.station[k].engaged := by
  rw [refreshStation_left left, markLeft, holding]
  exact modSeg_gives (setMark_code k _) q b.track

end Refresh

/-! ### What the later matters of an advance keep -/

/-- What a station holds and has counted stays. -/
structure SameTally (st st' : Station) : Prop where
  holding : st'.holding = st.holding
  override : st'.override = st.override
  pasteHold : st'.pasteHold = st.pasteHold
  wanted : st'.wanted = st.wanted
  engaged : st'.engaged = st.engaged

/-- Work of station `k` that leaves what it holds and has counted, the other stations, the count of seams under
machines not LIFTED, the marks' codes and the segments' SEAM_UNLIFTED flags, and the causes but one of a kind. -/
structure StationKeeps (k : Fin 16) (kind : CauseKind) (a b : Blocks) : Prop where
  tally : SameTally a.stations.station[k] b.stations.station[k]
  other : ∀ j : Fin 16, j ≠ k → b.stations.station[j] = a.stations.station[j]
  seamUnlifted : b.stations.seamUnlifted = a.stations.seamUnlifted
  segs : ∀ P : Segment → Prop, (∀ g, P g → P (flagRegister k g)) → (∀ g ∈ a.track.segs, P g) → ∀ g ∈ b.track.segs, P g
  causes : ∀ j, j ≠ kind → b.causes.entry j = a.causes.entry j

theorem evaluateWant_keeps (x : Ctx) (b : Blocks) (k : Fin 16) (kind : CauseKind) :
    StationKeeps k kind b (evaluateWant x b k) := by
  have only := evaluateWant_eq x b k
  constructor
  · obtain ⟨w, l, n, moved⟩ := evaluateWant_same x b k
    rw [moved]
    exact ⟨rfl, rfl, rfl, rfl, rfl⟩
  · exact fun j other => evaluateWant_other x b other
  · rw [evaluateWant_stations]
  · rw [only]
    exact fun _ _ all => all
  · rw [only]
    exact fun _ _ => rfl

/-- A raise claim leaves the entries of the other kinds (R13). -/
theorem raiseAt_entry_other {j k : CauseKind} (other : j ≠ k) (source : Nat) (level : Level) (b : Blocks) :
    (raiseAt k source level b).causes.entry j = b.causes.entry j := by
  cases live : b.live with
  | true => exact (raiseAt_raised k source level b live).2 j other
  | false => rw [raiseAt_idle k source level b live]

theorem judgeRepeat_keeps (b : Blocks) (k : Fin 16) : StationKeeps k .register b (judgeRepeat k b) := by
  constructor
  · rw [judged_stations, modStation_same]
    exact ⟨rfl, rfl, rfl, rfl, rfl⟩
  · intro j other
    rw [judged_stations, modStation_other _ other]
  · rw [judged_stations]
    rfl
  · intro P keeps all
    rw [judged_track, judgedTrack]
    split
    · split
      · exact forall_modSeg keeps all _
      · exact all
    all_goals exact all
  · intro j other
    rw [judgeRepeat_eq]
    split
    · exact raiseAt_entry_other other ..
    · rfl

theorem repeatBoundary_keeps (x : Ctx) (b : Blocks) (k : Fin 16) : StationKeeps k .register b (repeatBoundary x b k) := by
  by_cases due : (b.stationOf k).mount.mounted = true ∧ phaseUnits x k (b.stationOf k).mount = 0
  · rw [repeatBoundary_at due.1 due.2]
    obtain ⟨⟨holding, override, pasteHold, wanted, engaged⟩, other, seamUnlifted, segs, causes⟩ := judgeRepeat_keeps b k
    refine ⟨?_, fun j apart => (modStation_other _ apart _).trans (other j apart), seamUnlifted, segs, causes⟩
    rw [modStation_same, activateTrim_eq]
    exact ⟨holding, override, pasteHold, wanted, engaged⟩
  · rw [repeatBoundary, if_neg due]
    exact ⟨⟨rfl, rfl, rfl, rfl, rfl⟩, fun _ _ => rfl, rfl, fun _ _ all => all, fun _ _ => rfl⟩

/-! ### The seam head (R108) -/

/-- The blocks as a seam head has come under a machine that is not LIFTED, the raise apart. -/
def seamMet (l : List Nat) (b : Blocks) : Blocks :=
  (b.modTrack fun t => l.foldl (fun t q => modSeg q (modFlags fun fl => { fl with seamUnlifted := true }) t) t).modStations
    fun s => { s with seamUnlifted := inc16 s.seamUnlifted }

section SeamHead
variable {x : Ctx} {b : Blocks} {k : Fin 16}

theorem seamHeadTest_met {f : Nat} (place : stationCoordinate x k = some f) (head : seamHeadAt b.track f ≠ [])
    (unlifted : b.stations.station[k].lift ≠ .lifted) :
    seamHeadTest x b k = raise .seamUnlifted (screenSource k) (seamMet (seamHeadAt b.track f) b) := by
  rw [seamHeadTest, place]
  exact if_neg (not_or.mpr ⟨head, unlifted⟩)

theorem seamHeadTest_cases : seamHeadTest x b k = b ∨ ∃ l, seamHeadTest x b k =
    raise .seamUnlifted (screenSource k) (seamMet l b) := by
  unfold seamHeadTest
  split
  · exact .inl rfl
  · dsimp only
    split
    · exact .inl rfl
    · exact .inr ⟨_, rfl⟩

/-- The test leaves the records of the stations. -/
theorem seamHeadTest_station : (seamHeadTest x b k).stations.station = b.stations.station := by
  rcases seamHeadTest_cases (x := x) (b := b) (k := k) with same | ⟨l, met⟩
  · rw [same]
  · rw [met, raise, raiseAt_stations]
    rfl

/-- The test changes of a segment its flag alone. -/
theorem seamHeadTest_segs {P : Segment → Prop} (keeps : ∀ f g, P g → P (modFlags f g)) (all : ∀ g ∈ b.track.segs, P g) :
    ∀ g ∈ (seamHeadTest x b k).track.segs, P g := by
  rcases seamHeadTest_cases (x := x) (b := b) (k := k) with same | ⟨l, met⟩
  · rw [same]
    exact all
  · rw [met, raise, raiseAt_track_other _ _ _ _ (by decide)]
    exact forall_modSegs (keeps _) l all

/-- What the test leaves where it finds a seam head (R108). -/
theorem seamHeadTest_raises {f : Nat} (live : b.live = true) (place : stationCoordinate x k = some f)
    (head : seamHeadAt b.track f ≠ []) (unlifted : b.stations.station[k].lift ≠ .lifted) :
    ((seamHeadTest x b k).causes.entry .seamUnlifted).isSome = true ∧
      (seamHeadTest x b k).stations.seamUnlifted = inc16 b.stations.seamUnlifted ∧
      ∀ q ∈ seamHeadAt b.track f, ∀ g ∈ (seamHeadTest x b k).track.segs, g.seq = q → g.flags.seamUnlifted = true := by
  rw [seamHeadTest_met place head unlifted, raise]
  refine ⟨?_, ?_, fun q named => ?_⟩
  · rw [(raiseAt_raised .seamUnlifted (screenSource k) _ (seamMet (seamHeadAt b.track f) b) live).1]
    rfl
  · rw [raiseAt_stations]
    rfl
  · rw [raiseAt_track_other _ _ _ _ (by decide)]
    exact modSegs_give (P := fun g => g.flags.seamUnlifted = true) (fun _ => rfl) named b.track

end SeamHead

/-! ### The accounting (R115) -/

theorem TrackWork.find {t t' : Track} (h : TrackWork t t') (q : Nat) (c : Cache) :
    (t'.find q).bind (segSetting c) = (t.find q).bind (segSetting c) := by
  obtain ⟨m, carried, rfl⟩ := h
  have seq : ((fun g => g.seq == q) ∘ m) = fun g => g.seq == q := funext fun g => by
    rw [Function.comp_apply, (carried g).fields.seq]
  have setting : segSetting c ∘ m = segSetting c := funext fun g => by
    rw [Function.comp_apply, segSetting, segSetting, (carried g).fields.kind, (carried g).fields.setting]
  rw [Track.find, List.find?_map, seq, Option.bind_map, setting]
  rfl

/-- The web's work leaves what a station reads to tell whether its unit is to be printed. -/
theorem printsHere_web {x : Ctx} {a b : Blocks} {k : Fin 16} (work : WebWork a b)
    (station : b.stations.station = a.stations.station) : printsHere x b k = printsHere x a k := by
  rw [Bool.eq_iff_iff, printsHere_iff_bind, printsHere_iff_bind, work.cache, station, work.track.seamRanges]
  simp only [work.track.find]

/-- The station's counts after the unit (R115). -/
theorem accountUnit_station (x : Ctx) (b : Blocks) (k : Fin 16) : (accountUnit x b k).stations.station[k] =
    { b.stations.station[k] with
      wanted := b.stations.station[k].wanted + (if printsHere x b k then 1 else 0)
      engaged := b.stations.station[k].engaged +
        (if printsHere x b k ∧ b.stations.station[k].lift = .engaged then 1 else 0) } := by
  unfold accountUnit
  cases printsHere x b k with
  | false => simp
  | true =>
    rw [if_pos rfl, modStation_same]
    split <;> simp_all

end Sys2Proof.Machine
end

section
/-! What an H advance leaves of a station, of the segment that it leaves and of a seam head (R101, R108, R115, R116). -/

namespace Sys2Proof.Machine

theorem StationKeeps.trans {k : Fin 16} {kind : CauseKind} {a b c : Blocks} (h : StationKeeps k kind a b)
    (h' : StationKeeps k kind b c) : StationKeeps k kind a c where
  tally := ⟨h'.tally.holding.trans h.tally.holding, h'.tally.override.trans h.tally.override,
    h'.tally.pasteHold.trans h.tally.pasteHold, h'.tally.wanted.trans h.tally.wanted,
    h'.tally.engaged.trans h.tally.engaged⟩
  other := fun j other => (h'.other j other).trans (h.other j other)
  seamUnlifted := h'.seamUnlifted.trans h.seamUnlifted
  segs := fun P keeps all => h'.segs P keeps (h.segs P keeps all)
  causes := fun j other => (h'.causes j other).trans (h.causes j other)

/-- The accounting changes the record of its own station alone. -/
theorem accountUnit_others (x : Ctx) (b : Blocks) (k : Fin 16) : (accountUnit x b k).track = b.track ∧
    (accountUnit x b k).causes = b.causes ∧ (accountUnit x b k).stations.seamUnlifted = b.stations.seamUnlifted ∧
    ∀ j : Fin 16, j ≠ k → (accountUnit x b k).stations.station[j] = b.stations.station[j] := by
  unfold accountUnit
  split
  · exact ⟨rfl, rfl, rfl, fun j other => modStation_other b other _⟩
  · exact ⟨rfl, rfl, rfl, fun _ _ => rfl⟩

section Advance
variable (x : Ctx) (b : Blocks) (k : Fin 16)

/-- The station after its boundary, the seam-head test and the accounting: what comes after them at the advance keeps it. -/
def accounted : Blocks := accountUnit x (seamHeadTest x (refreshStation x b k) k) k

theorem stationAdvance_keeps : StationKeeps k .register (accounted x b k) (stationAdvance x b k) :=
  (evaluateWant_keeps x (accounted x b k) k .register).trans (repeatBoundary_keeps ..)

theorem accounted_station : (accounted x b k).stations.station[k] =
    { (refreshStation x b k).stations.station[k] with
      wanted := (refreshStation x b k).stations.station[k].wanted +
        (if printsHere x (refreshStation x b k) k then 1 else 0)
      engaged := (refreshStation x b k).stations.station[k].engaged +
        (if printsHere x (refreshStation x b k) k ∧ (refreshStation x b k).stations.station[k].lift = .engaged
          then 1 else 0) } := by
  rw [accounted, accountUnit_station, printsHere_web (seamHeadTest_web (.refl _) x) seamHeadTest_station,
    seamHeadTest_station]

/-- What a station holds and has counted after an H advance. -/
theorem stationAdvance_tally : let left := (refreshStation x b k).stations.station[k]
    let st' := (stationAdvance x b k).stations.station[k]
    let prints := printsHere x (refreshStation x b k) k
    st'.holding = b.track.holdingAt (stationCoordinate x k) ∧ st'.override = left.override ∧
      st'.pasteHold = left.pasteHold ∧ st'.wanted = left.wanted + (if prints then 1 else 0) ∧
      st'.engaged = left.engaged + (if prints ∧ b.stations.station[k].lift = .engaged then 1 else 0) := by
  obtain ⟨holding, override, pasteHold, wanted, engaged⟩ := (stationAdvance_keeps x b k).tally
  dsimp only
  rw [holding, override, pasteHold, wanted, engaged, accounted_station, refreshStation_lift]
  exact ⟨refreshStation_holding, rfl, rfl, rfl, rfl⟩

theorem accounted_segs {P : Segment → Prop} (keeps : ∀ f g, P g → P (modFlags f g))
    (all : ∀ g ∈ (refreshStation x b k).track.segs, P g) : ∀ g ∈ (accounted x b k).track.segs, P g := by
  rw [accounted, (accountUnit_others ..).1]
  exact seamHeadTest_segs keeps all

theorem stationAdvance_other {j : Fin 16} (other : j ≠ k) :
    (stationAdvance x b k).stations.station[j] = b.stations.station[j] := by
  rw [(stationAdvance_keeps x b k).other j other, accounted, (accountUnit_others ..).2.2.2 j other, seamHeadTest_station,
    refreshStation_others.1 j other]

theorem flagRegister_code (g : Segment) : (flagRegister k g).marks[k].code = g.marks[k].code := by
  simp [flagRegister, Bank.modify]

/-- The segment that the station leaves bears the mark of the units counted in it (R116). -/
theorem stationAdvance_marks {q : Nat} (holding : b.stations.station[k].holding = .segment q)
    (left : b.stations.station[k].holding ≠ b.track.holdingAt (stationCoordinate x k)) :
    ∀ g ∈ (stationAdvance x b k).track.segs, g.seq = q →
      g.marks[k].code = markOf b.stations.station[k].wanted b.stations.station[k].engaged := by
  refine (stationAdvance_keeps x b k).segs _ (fun g marked own => ?_)
    (accounted_segs x b k (fun _ _ marked => marked) (refreshStation_marks holding left))
  rw [flagRegister_code]
  exact marked own

/-- A seam head under a machine that is not LIFTED (R108). -/
theorem stationAdvance_seam {f : Nat} (live : b.live = true) (place : stationCoordinate x k = some f)
    (head : seamHeadAt (refreshStation x b k).track f ≠ []) (unlifted : b.stations.station[k].lift ≠ .lifted) :
    ((stationAdvance x b k).causes.entry .seamUnlifted).isSome = true ∧
      (stationAdvance x b k).stations.seamUnlifted = inc16 b.stations.seamUnlifted ∧
      ∀ q ∈ seamHeadAt (refreshStation x b k).track f, ∀ g ∈ (stationAdvance x b k).track.segs, g.seq = q →
        g.flags.seamUnlifted = true := by
  have keeps := stationAdvance_keeps x b k
  obtain ⟨track, causes, seamUnlifted, _⟩ := accountUnit_others x (seamHeadTest x (refreshStation x b k) k) k
  obtain ⟨raised, counted, flagged⟩ := seamHeadTest_raises (b := refreshStation x b k) (k := k)
    ((refreshStation_web (.refl b) x).live.trans live) place head (by rw [refreshStation_lift]; exact unlifted)
  refine ⟨?_, ?_, fun q named => ?_⟩
  · rw [keeps.causes _ (by decide), accounted, causes]
    exact raised
  · rw [keeps.seamUnlifted, accounted, seamUnlifted, counted, refreshStation_others.2]
  · refine keeps.segs _ (fun g flag => flag) ?_
    rw [accounted, track]
    exact flagged q named

end Advance

/-- Settles O42: a station at an H advance, its want, its lift machine, its registration and its lift timer. -/
theorem stationsFollowTheTrackAndTheirLifts : Obligations.StationsFollowTheTrackAndTheirLifts := by
  refine ⟨fun x entering b k live => ?_, fun x b k => ?_, fun x b k r live => ?_, fun k error b => ?_,
    fun s k n running live moving => ?_⟩
  · have advance : takeAdvance x entering b (.station k) = stationAdvance x b k := rfl
    obtain ⟨holding, override, pasteHold, wanted, engaged⟩ := stationAdvance_tally x b k
    rw [refreshStation_station] at override pasteHold wanted engaged
    rw [advance]
    dsimp only
    refine ⟨refreshStation_station, holding, override, pasteHold, wanted, engaged,
      fun q held gone => stationAdvance_marks x b k held gone, fun f place head unlifted => ?_,
      fun j other => stationAdvance_other x b k other⟩
    obtain ⟨raised, counted, flagged⟩ := stationAdvance_seam x b k live place head unlifted
    exact ⟨raised, counted, flagged⟩
  · refine ⟨printsHere_iff x b k, wantOf_down_iff x b k, evaluateWant_kept, fun moved => ?_⟩
    refine evaluateWant_moved moved ?_
    generalize b.stations.station[k] = st
    obtain ⟨_, lift⟩ := st
    cases wantOf x b k <;> cases lift <;> rfl
  · refine ⟨liftReport_lowering, fun lifting => ?_, fun rest up => liftReport_fits (.inl ⟨rest, up⟩),
      fun rest down => liftReport_fits (.inr ⟨rest, down⟩), fun rest => ?_, fun reason => liftReport_fault⟩
    · refine (liftReport_lifting lifting).trans ?_
      split
      · split <;> rfl
      · rfl
    · rw [liftReport_unexpected rest]
      have taken := liftUnexpected_taken live x k
      refine ⟨taken.station.trans ?_, ?_, taken.raised⟩
      · exact congrArg (fun st : Station => { st with want := .up }) (faulted_same ..)
      · rw [taken.stations]
  · exact ⟨fun away => registration_away away error, fun engaged => registration_engaged engaged error⟩
  · have taken := liftExpiry_taken live s.ctx moving
    obtain ⟨⟨_, motion, mem, _, causes, track, _, _, stations, _, field, _⟩, _⟩ :=
      blockStep_follows (fun x b => liftExpiry x k b) s
    simp only [State.setBlk_blk] at causes track stations field
    refine ⟨_, exec_liftTimerExpiry running, ?_, fun j other => ?_, ?_, ?_, track.trans taken.track,
      field.trans taken.field, mem, motion⟩
    · rw [stations, taken.station]
      exact congrArg (fun st : Station => { st with want := .up }) (faulted_same ..)
    · rw [stations, taken.other j other]
      exact faulted_other other ..
    · rw [stations, taken.stations]
    · rw [causes]
      exact taken.raised

end Sys2Proof.Machine
end

section
/-! The command frame of a zone's module, and what a zone takes of the track (R120 to R122, R124, R146). -/

namespace Sys2Proof.Machine

/-! ### What a zone sends (R120, R124) -/

theorem setpointInForce_run {r : Zone} (run : r.mode = .run) (c : Anchor) : setpointInForce c r = (r.runSet, r.source) := by
  simp only [setpointInForce, run]

theorem setpointInForce_away {r : Zone} (away : r.mode ≠ .run) (c : Anchor) :
    setpointInForce c r = (c.standbySetpoint, .standby) := by
  unfold setpointInForce
  split
  · exact absurd ‹_› away
  · rfl
  · rfl

theorem airSent_vent {r : Zone} (vent : r.mode = .vent) : airSent r = 15 := if_pos vent

theorem airSent_closed {r : Zone} (closed : r.mode ≠ .vent) : airSent r = r.runAir := if_neg closed

/-- A zone's module serves no screen. -/
theorem moduleScreen_of_moduleZone {a : Fin 24} {z : Fin 8} (serves : moduleZone a = some z) : moduleScreen a = none := by
  unfold moduleZone at serves
  split at serves
  · rename_i high
    exact dif_neg (Nat.not_lt.mpr high)
  · cases serves

theorem commandFrame_zone {a : Fin 24} {z : Fin 8} (serves : moduleZone a = some z) (x : Ctx) (b : Blocks) :
    commandFrame x b a = zoneFrame (moduleSource a) b.oven.zone[z].mode b.field.module[a].selector
      (setpointInForce x.cfg b.oven.zone[z]).1 (airSent b.oven.zone[z]) := by
  simp only [commandFrame, moduleScreen_of_moduleZone serves, serves]

/-- Settles O44: in each mode of its zone, the setpoint in force and the air level sent. -/
theorem zoneFramesFollowTheMode : Obligations.ZoneFramesFollowTheMode := by
  intro x b a z serves
  dsimp only
  rw [commandFrame_zone serves, moduleSource]
  generalize b.oven.zone[z] = r
  cases mode : r.mode with
  | run => rw [setpointInForce_run mode, airSent_closed (by simp [mode])]
  | standby => rw [setpointInForce_away (by simp [mode]), airSent_closed (by simp [mode])]
  | vent => rw [setpointInForce_away (by simp [mode]), airSent_vent mode]

/-! ### A zone takes its holding (R121, R122) -/

/-- A zone as it takes its holding from the track, and its setpoint and air level at a zone boundary. -/
def zoneTaking (x : Ctx) (t : Track) (c : Cache) (z : Fin 8) (r : Zone) : Zone :=
  let new := t.holdingAt (coordinate x.motion.h x.cfg.zoneEntry[z])
  match new with
  | .segment q =>
    if r.recorded = some q then { r with holding := new }
    else chooseSetpoint z ((t.find q).bind (segSetting c)) { r with holding := new, recorded := some q }
  | .gap | .before => { r with holding := new }

/-- The change of a zone record, by what it gives at the record as it stands. -/
theorem modZone_const (z : Fin 8) (f : Zone → Zone) (b : Blocks) : modZone z f b = modZone z (fun _ => f b.oven.zone[z]) b :=
  rfl

theorem refreshZone_eq (x : Ctx) (b : Blocks) (z : Fin 8) :
    refreshZone x b z = modZone z (zoneTaking x b.track b.cache z) b := by
  rw [modZone_const]
  unfold refreshZone zoneTaking
  dsimp only
  generalize b.track.holdingAt (coordinate x.motion.h x.cfg.zoneEntry[z]) = new
  cases new with
  | segment q =>
    dsimp only
    split <;> rfl
  | gap | before => rfl

theorem refreshZone_same (x : Ctx) (b : Blocks) (z : Fin 8) :
    (refreshZone x b z).oven.zone[z] = zoneTaking x b.track b.cache z b.oven.zone[z] := by
  rw [refreshZone_eq, modZone_same]

theorem refreshZone_other (x : Ctx) (b : Blocks) {z j : Fin 8} (other : j ≠ z) :
    (refreshZone x b z).oven.zone[j] = b.oven.zone[j] := by
  rw [refreshZone_eq, modZone_other b other]

section Taking
variable {x : Ctx} {t : Track} {z : Fin 8}

/-- At a GAP, or before the track, a zone takes its holding alone. -/
theorem zoneTaking_off (off : ∀ q, t.holdingAt (coordinate x.motion.h x.cfg.zoneEntry[z]) ≠ .segment q) (c : Cache)
    (r : Zone) : zoneTaking x t c z r = { r with holding := t.holdingAt (coordinate x.motion.h x.cfg.zoneEntry[z]) } := by
  unfold zoneTaking
  dsimp only
  split
  · exact absurd ‹_› (off _)
  · rfl
  · rfl

variable {q : Nat} (at_q : t.holdingAt (coordinate x.motion.h x.cfg.zoneEntry[z]) = .segment q)
include at_q

/-- At the segment last recorded a zone takes its holding alone. -/
theorem zoneTaking_again {r : Zone} (recorded : r.recorded = some q) (c : Cache) :
    zoneTaking x t c z r = { r with holding := .segment q } := by
  simp only [zoneTaking, at_q, recorded, if_true]

/-- A zone boundary (R121): the setpoint is chosen. -/
theorem zoneTaking_boundary {r : Zone} (new : r.recorded ≠ some q) (c : Cache) : zoneTaking x t c z r =
    chooseSetpoint z ((t.find q).bind (segSetting c)) { r with holding := .segment q, recorded := some q } := by
  simp only [zoneTaking, at_q, new, if_false]

end Taking

/-- The zones of a list after each has taken its holding: what one takes, no other changes. -/
theorem foldl_refreshZone_zone (x : Ctx) (z : Fin 8) {l : List (Fin 8)} (once : l.Nodup) (b : Blocks) :
    (l.foldl (refreshZone x) b).oven.zone[z] = if z ∈ l then (refreshZone x b z).oven.zone[z] else b.oven.zone[z] := by
  induction l generalizing b with
  | nil => rfl
  | cons j l ih =>
    obtain ⟨absent, once⟩ := List.nodup_cons.mp once
    rw [List.foldl_cons, ih once]
    by_cases same : z = j
    · subst same
      rw [if_neg absent, if_pos List.mem_cons_self]
    · have later : (refreshZone x (refreshZone x b j) z).oven.zone[z] = (refreshZone x b z).oven.zone[z] := by
        rw [refreshZone_same, refreshZone_same, refreshZone_other x b same, refreshZone_eq]
        rfl
      rw [later, refreshZone_other x b same]
      simp only [List.mem_cons, same, false_or]

theorem mem_listedZones {c : Anchor} {z : Fin 8} : z ∈ listedZones c ↔ z.val < c.zoneCount := by
  simp [listedZones, zones, listed]

/-- Every listed zone takes its holding, and no other (R121). -/
theorem refreshZones_zone (x : Ctx) (b : Blocks) (z : Fin 8) : (refreshZones x b).oven.zone[z] =
    if z.val < x.cfg.zoneCount then (refreshZone x b z).oven.zone[z] else b.oven.zone[z] := by
  have once : (listedZones x.cfg).Nodup := (List.nodup_finRange 8).filter _
  rw [refreshZones, foldl_refreshZone_zone x z once]
  simp only [mem_listedZones]

end Sys2Proof.Machine
end

section
/-! A probe takes its place, is judged and gives its segment its verdict (R119, R129, R131, R132). -/

namespace Sys2Proof.Machine

/-! ### Two changes of one segment, and of its probes -/

theorem modSeg_modSeg {q : Nat} {f g : Segment → Segment} (seq : ∀ s, (g s).seq = s.seq) (t : Track) :
    modSeg q f (modSeg q g t) = modSeg q (fun s => f (g s)) t := by
  simp only [modSeg, List.map_map]
  refine congrArg (fun segs => { t with segs := segs }) (List.map_congr_left fun s _ => ?_)
  by_cases own : s.seq = q <;> simp [own, seq]

/-- The segment of a number after a change of it. -/
theorem found_modSeg {t : Track} {q : Nat} {g : Segment} (found : t.find q = some g) {f : Segment → Segment}
    (seq : ∀ s, (f s).seq = s.seq := by exact fun _ => rfl) : (modSeg q f t).find q = some (f g) := by
  rw [find_modSeg q f seq, found]
  rfl

theorem modProbe_modProbe {rel : Nat} {f g : Probe → Probe} (keeps : ∀ p, (g p).rel = p.rel) (s : Segment) :
    modProbe rel f (modProbe rel g s) = modProbe rel (fun p => f (g p)) s := by
  simp only [modProbe, List.map_map]
  refine congrArg (fun probes => { s with probes := probes }) (List.map_congr_left fun p _ => ?_)
  by_cases here : p.rel = rel <;> simp [here, keeps]

/-! ### A verdict (R131, R132) -/

/-- The oven's verdict counts alone changed. -/
structure VerdictCounts (o o' : Oven) : Prop where
  zone : o'.zone = o.zone
  timerRunning : o'.timerRunning = o.timerRunning
  dwellCount : o'.dwellCount = o.dwellCount
  dwellStage : o'.dwellStage = o.dwellStage
  standbys : o'.standbys = o.standbys
  vents : o'.vents = o.vents
  coverageShort : o'.coverageShort = o.coverageShort

theorem VerdictCounts.refl (o : Oven) : VerdictCounts o o := ⟨rfl, rfl, rfl, rfl, rfl, rfl, rfl⟩

theorem VerdictCounts.trans {o o' o'' : Oven} (h : VerdictCounts o o') (k : VerdictCounts o' o'') :
    VerdictCounts o o'' where
  zone := k.zone.trans h.zone
  timerRunning := k.timerRunning.trans h.timerRunning
  dwellCount := k.dwellCount.trans h.dwellCount
  dwellStage := k.dwellStage.trans h.dwellStage
  standbys := k.standbys.trans h.standbys
  vents := k.vents.trans h.vents
  coverageShort := k.coverageShort.trans h.coverageShort

theorem countVerdict_counts (v : Verdict) (o : Oven) : VerdictCounts o (countVerdict v o) := by
  cases v <;> exact ⟨rfl, rfl, rfl, rfl, rfl, rfl, rfl⟩

/-- A segment whose probes at a relative position receive a verdict. -/
def Segment.verdictAt (rel : Nat) (v : Verdict) (g : Segment) : Segment :=
  (modProbe rel (fun p => { p with verdict := v }) g).gain v

/-- A probe that has not the verdict given stood before, elsewhere. -/
theorem mem_verdictAt {rel : Nat} {v : Verdict} {g : Segment} {p : Probe} (held : p ∈ (g.verdictAt rel v).probes)
    (other : p.verdict ≠ v) : p ∈ g.probes ∧ p.rel ≠ rel := by
  obtain ⟨r, old, rfl⟩ := List.mem_map.mp held
  by_cases here : r.rel = rel
  · rw [if_pos here] at other
    exact absurd rfl other
  · rw [if_neg here]
    exact ⟨old, here⟩

/-- The blocks as a probe receives its verdict, the raise apart. -/
def verdictTaken (q rel : Nat) (v : Verdict) (b : Blocks) : Blocks :=
  (b.modTrack (modSeg q (Segment.verdictAt rel v))).modOven (countVerdict v)

/-- A segment of a number has gained a verdict that is not to be raised again. -/
def hadVerdict (q : Nat) (v : Verdict) (t : Track) : Bool := (t.find q).elim true fun g => g.hasGained v

/-- The first UNDERCURED probe of a segment raises UNDERCURE, a later one does not. -/
theorem giveVerdict_undercured (source q rel : Nat) (b : Blocks) : giveVerdict source q rel .undercured b =
    if hadVerdict q .undercured b.track then verdictTaken q rel .undercured b
    else raise .undercure source (verdictTaken q rel .undercured b) := by
  unfold giveVerdict hadVerdict
  cases b.track.find q <;> rfl

theorem giveVerdict_overcured (source q rel : Nat) (b : Blocks) : giveVerdict source q rel .overcured b =
    if hadVerdict q .overcured b.track then verdictTaken q rel .overcured b
    else raise .overcure source (verdictTaken q rel .overcured b) := by
  unfold giveVerdict hadVerdict
  cases b.track.find q <;> rfl

/-- A verdict is given with no raise, or with one of UNDERCURE or OVERCURE. -/
theorem giveVerdict_cases (source q rel : Nat) (v : Verdict) (b : Blocks) :
    giveVerdict source q rel v b = verdictTaken q rel v b ∨
      ∃ k, k ≠ .trackUncertain ∧ giveVerdict source q rel v b = raise k source (verdictTaken q rel v b) := by
  cases v with
  | undercured =>
    rw [giveVerdict_undercured]
    split
    · exact .inl rfl
    · exact .inr ⟨.undercure, by decide, rfl⟩
  | overcured =>
    rw [giveVerdict_overcured]
    split
    · exact .inl rfl
    · exact .inr ⟨.overcure, by decide, rfl⟩
  | cured | unverified | pending | notApplicable => exact .inl rfl

theorem giveVerdict_track (source q rel : Nat) (v : Verdict) (b : Blocks) :
    (giveVerdict source q rel v b).track = modSeg q (Segment.verdictAt rel v) b.track := by
  rcases giveVerdict_cases source q rel v b with plain | ⟨k, other, raised⟩
  · rw [plain]
    rfl
  · rw [raised, raise, raiseAt_track_other _ _ _ _ other]
    rfl

theorem giveVerdict_oven (source q rel : Nat) (v : Verdict) (b : Blocks) :
    (giveVerdict source q rel v b).oven = countVerdict v b.oven := by
  rcases giveVerdict_cases source q rel v b with plain | ⟨k, other, raised⟩
  · rw [plain]
    rfl
  · rw [raised, raise, raiseAt_oven]
    rfl

/-- The causes after a verdict (R132). -/
theorem giveVerdict_causes {q : Nat} {b : Blocks} {g : Segment} (found : b.track.find q = some g) (live : b.live = true)
    (source rel : Nat) (v : Verdict) :
    let b' := giveVerdict source q rel v b
    (v = .undercured → g.gainedUnder = false → Raised .undercure source .report b.causes b'.causes) ∧
    (v = .overcured → g.gainedOver = false → Raised .overcure source .report b.causes b'.causes) ∧
    ((v = .undercured → g.gainedUnder = true) → (v = .overcured → g.gainedOver = true) → b'.causes = b.causes) := by
  have told (k : CauseKind) (had : Bool) :
      let b' := if had then verdictTaken q rel v b else raise k source (verdictTaken q rel v b)
      (had = false → Raised k source k.level b.causes b'.causes) ∧ (had = true → b'.causes = b.causes) := by
    cases had
    · exact ⟨fun _ => raiseAt_raised k source k.level (verdictTaken q rel v b) live, nofun⟩
    · exact ⟨nofun, fun _ => rfl⟩
  cases v with
  | undercured =>
    have had : hadVerdict q .undercured b.track = g.gainedUnder := by simp [hadVerdict, found, Segment.hasGained]
    obtain ⟨first, again⟩ := told .undercure g.gainedUnder
    rw [← had, ← giveVerdict_undercured, had] at first again
    exact ⟨fun _ => first, nofun, fun gained _ => again (gained rfl)⟩
  | overcured =>
    have had : hadVerdict q .overcured b.track = g.gainedOver := by simp [hadVerdict, found, Segment.hasGained]
    obtain ⟨first, again⟩ := told .overcure g.gainedOver
    rw [← had, ← giveVerdict_overcured, had] at first again
    exact ⟨nofun, fun _ => first, fun _ gained => again (gained rfl)⟩
  | cured | unverified | pending | notApplicable => exact ⟨nofun, nofun, fun _ _ => rfl⟩

/-- The judgement of R131, row by row. -/
theorem judgeProbe_rows (p : Probe) (v : Setting) :
    judgeProbe none p = .unverified ∧
    (v.scorchTime < p.scorch → judgeProbe (some v) p = .overcured) ∧
    (p.scorch ≤ v.scorchTime →
      (v.cureTime ≤ p.cure → judgeProbe (some v) p = if p.cap then .unverified else .cured) ∧
      (p.cure < v.cureTime → v.cureTime ≤ p.cure + p.unverified → judgeProbe (some v) p = .unverified) ∧
      (p.cure + p.unverified < v.cureTime → judgeProbe (some v) p = .undercured)) := by
  refine ⟨rfl, fun scorched => if_pos scorched, fun spared => ?_⟩
  have row : judgeProbe (some v) p = if v.cureTime ≤ p.cure then (if p.cap then .unverified else .cured)
      else if v.cureTime ≤ p.cure + p.unverified then .unverified else .undercured := if_neg (Nat.not_lt.mpr spared)
  rw [row]
  refine ⟨fun cured => if_pos cured, fun short gap => ?_, fun short => ?_⟩
  · rw [if_neg (Nat.not_le.mpr short), if_pos gap]
  · rw [if_neg (by omega), if_neg (Nat.not_le.mpr short)]

/-! ### The place of a probe (R129) -/

/-- The segment's probes at a relative position take their place at H. -/
def Segment.placedAt (rel : Nat) (place : Place) (g : Segment) : Segment :=
  modProbe rel (fun p => { p with place := place }) g

section Placing
variable {x : Ctx} {b : Blocks} {q rel : Nat} {g : Segment} {p : Probe}
variable (found : b.track.find q = some g) (held : g.probes.find? (·.rel == rel) = some p)
include found held

theorem placeProbe_eq : placeProbe x b q rel =
    let moved := b.modTrack (modSeg q (Segment.placedAt rel (placeOf x (g.head + rel))))
    if placeOf x (g.head + rel) = .after ∧ p.verdict = .pending then
      giveVerdict x.cfg.zoneCount q rel (judgeProbe (segSetting b.cache g) p) moved
    else moved := by
  simp only [placeProbe, found, held]
  rfl

/-- A probe that is not past the exit, or has its verdict, takes its place alone. -/
theorem placeProbe_moved (kept : placeOf x (g.head + rel) ≠ .after ∨ p.verdict ≠ .pending) :
    placeProbe x b q rel = b.modTrack (modSeg q (Segment.placedAt rel (placeOf x (g.head + rel)))) :=
  (placeProbe_eq found held).trans (if_neg (not_and_or.mpr kept))

section Judged
variable (past : placeOf x (g.head + rel) = .after) (pending : p.verdict = .pending)
include past pending

theorem placeProbe_judged : placeProbe x b q rel =
    giveVerdict x.cfg.zoneCount q rel (judgeProbe (segSetting b.cache g) p)
      (b.modTrack (modSeg q (Segment.placedAt rel .after))) := by
  rw [placeProbe_eq found held, past]
  exact if_pos ⟨rfl, pending⟩

theorem placeProbe_judged_track : (placeProbe x b q rel).track = modSeg q (fun s =>
    Segment.gain (judgeProbe (segSetting b.cache g) p)
      (modProbe rel (fun r => { r with place := .after, verdict := judgeProbe (segSetting b.cache g) p }) s)) b.track := by
  rw [placeProbe_judged found held past pending, giveVerdict_track]
  refine (modSeg_modSeg (g := Segment.placedAt rel .after) (fun _ => rfl) b.track).trans
    (congrArg (modSeg q · b.track) (funext fun s => ?_))
  exact congrArg (Segment.gain _) (modProbe_modProbe (g := fun r => { r with place := .after }) (fun _ => rfl) s)

/-- The causes after a judgement (R132). -/
theorem placeProbe_judged_causes (live : b.live = true) :
    let v := judgeProbe (segSetting b.cache g) p
    let b' := placeProbe x b q rel
    (v = .undercured → g.gainedUnder = false → Raised .undercure x.cfg.zoneCount .report b.causes b'.causes) ∧
    (v = .overcured → g.gainedOver = false → Raised .overcure x.cfg.zoneCount .report b.causes b'.causes) ∧
    ((v = .undercured → g.gainedUnder = true) → (v = .overcured → g.gainedOver = true) → b'.causes = b.causes) := by
  have moved : (b.modTrack (modSeg q (Segment.placedAt rel .after))).track.find q = some (g.placedAt rel .after) :=
    found_modSeg found
  dsimp only
  rw [placeProbe_judged found held past pending]
  exact giveVerdict_causes moved live ..

end Judged

/-- What stays of a segment whose probes are created and placed: its flags, and what it has gained. -/
structure KeepsGained (g g' : Segment) : Prop where
  flags : g'.flags = g.flags
  gainedUnder : g.gainedUnder = true → g'.gainedUnder = true
  gainedOver : g.gainedOver = true → g'.gainedOver = true

/-- The probes at a relative position have their place at H, and keep their verdicts unless it is past the exit. -/
structure Placed (x : Ctx) (rel : Nat) (g g' : Segment) : Prop where
  probes : ∃ verdict : Verdict → Verdict, (placeOf x (g.head + rel) ≠ .after → verdict = id) ∧
    g'.probes = g.probes.map fun p =>
      if p.rel = rel then { p with place := placeOf x (g.head + rel), verdict := verdict p.verdict } else p
  keeps : KeepsGained g g'

theorem placeProbe_placed : ∃ g', (placeProbe x b q rel).track.find q = some g' ∧ Placed x rel g g' := by
  by_cases judged : placeOf x (g.head + rel) = .after ∧ p.verdict = .pending
  · obtain ⟨past, pending⟩ := judged
    rw [placeProbe_judged_track found held past pending]
    refine ⟨_, found_modSeg found, ⟨fun _ => judgeProbe (segSetting b.cache g) p, fun inside => absurd past inside, ?_⟩,
      rfl, ?_, ?_⟩
    · rw [past]
      rfl
    · exact fun gained => by simp [Segment.gain, modProbe, gained]
    · exact fun gained => by simp [Segment.gain, modProbe, gained]
  · rw [placeProbe_moved found held (not_and_or.mp judged)]
    exact ⟨_, found_modSeg found, ⟨id, fun _ => rfl, rfl⟩, rfl, id, id⟩

theorem placeProbe_counts : VerdictCounts b.oven (placeProbe x b q rel).oven := by
  rw [placeProbe_eq found held]
  dsimp only
  split
  · rw [giveVerdict_oven]
    exact countVerdict_counts ..
  · exact .refl _

end Placing

end Sys2Proof.Machine
end

section
/-! The probes of a segment are created and completed (R127, R128). -/

namespace Sys2Proof.Machine

/-! ### A new probe (R127) -/

/-- The new probe is found at its place in the list. -/
theorem insertProbe_find (rel : Nat) (ps : List Probe) : ∃ p, (insertProbe rel ps).find? (·.rel == rel) = some p := by
  refine Option.isSome_iff_exists.mp (List.find?_isSome.mpr ⟨Probe.new rel, ?_, beq_self_eq_true rel⟩)
  simp [insertProbe]

/-- A change of the probes at a relative position that no probe had changes the new one alone. -/
theorem insertProbe_map {rel : Nat} {ps : List Probe} (fresh : ∀ p ∈ ps, p.rel ≠ rel) (f : Probe → Probe) :
    (insertProbe rel ps).map (fun p => if p.rel = rel then f p else p) =
      ps.takeWhile (fun p => p.rel < rel) ++ f (Probe.new rel) :: ps.dropWhile (fun p => p.rel < rel) := by
  have kept {l : List Probe} (part : l ⊆ ps) : l.map (fun p => if p.rel = rel then f p else p) = l :=
    (List.map_congr_left fun p held => if_neg (fresh p (part held))).trans (List.map_id' l)
  rw [insertProbe, List.append_assoc, List.map_append, List.map_append, kept (List.takeWhile_sublist _).subset,
    kept (List.dropWhile_sublist _).subset]
  simp [Probe.new]

/-- A new probe at a relative position is among the probes of its segment, placed, and judged only past the exit. -/
structure Created (x : Ctx) (rel : Nat) (g g' : Segment) : Prop where
  probes : ∃ verdict, (placeOf x (g.head + rel) ≠ .after → verdict = .pending) ∧
    g'.probes = g.probes.takeWhile (fun p => p.rel < rel) ++
      { Probe.new rel with place := placeOf x (g.head + rel), verdict := verdict } ::
        g.probes.dropWhile (fun p => p.rel < rel)
  keeps : KeepsGained g g'

section Creation
variable {b : Blocks} {q rel : Nat} {g : Segment} (found : b.track.find q = some g) (x : Ctx)
include found

theorem inserted_find : (b.modTrack (modSeg q fun g => { g with probes := insertProbe rel g.probes })).track.find q =
    some { g with probes := insertProbe rel g.probes } := found_modSeg found

theorem createProbe_created (fresh : ∀ p ∈ g.probes, p.rel ≠ rel) :
    ∃ g', (createProbe x q rel b).track.find q = some g' ∧ Created x rel g g' := by
  obtain ⟨p, held⟩ := insertProbe_find rel g.probes
  obtain ⟨g', found', ⟨verdict, inside, probes⟩, keeps⟩ := placeProbe_placed (x := x) (inserted_find found) held
  refine ⟨g', found', ⟨verdict .pending, fun away => by rw [inside away]; rfl, ?_⟩,
    keeps.flags, keeps.gainedUnder, keeps.gainedOver⟩
  exact probes.trans (insertProbe_map fresh _)

theorem createProbe_counts : VerdictCounts b.oven (createProbe x q rel b).oven := by
  obtain ⟨p, held⟩ := insertProbe_find rel g.probes
  exact placeProbe_counts (inserted_find found) held

end Creation

/-- The probe at a number of spacings is created exactly where it is due (R127). -/
theorem growProbe_due {b : Blocks} {g : Segment} (entering : b.track.entering = some g) (x : Ctx) (k : Nat) :
    let rel := k * x.cfg.probeSpacing
    let due := g.kind = .print ∧ g.head + rel < x.motion.h ∧ g.probes.length < 7 ∧ (∀ p ∈ g.probes, p.rel ≠ rel) ∧
      ∀ w, b.track.boundary = .waiting w → g.head + rel < w
    (due → growProbe x b k = createProbe x g.seq rel b) ∧ (¬ due → growProbe x b k = b) := by
  have below (rel : Nat) : belowWaiting b.track.boundary g.head rel = true ↔
      ∀ w, b.track.boundary = .waiting w → g.head + rel < w := by
    cases b.track.boundary <;> simp [belowWaiting]
  have free (rel : Nat) : (g.probes.all fun p => decide (p.rel ≠ rel)) = true ↔ ∀ p ∈ g.probes, p.rel ≠ rel := by simp
  dsimp only
  rw [← below, ← free]
  simp only [growProbe, entering]
  exact ⟨fun due => if_pos due, fun early => if_neg early⟩

/-! ### The closure (R128) -/

/-- The probes below the length are kept. -/
def cutProbes (q n : Nat) (b : Blocks) : Blocks :=
  b.modTrack (modSeg q fun g => { g with probes := g.probes.filter fun p => decide (p.rel < n) })

/-- The last probe of the fixed length is created where the list does not hold it. -/
def completeProbes (x : Ctx) (q n : Nat) (b : Blocks) : Blocks :=
  match b.track.find q with
  | some g =>
    (match g.probes.getLast? with
     | some p => if p.rel + 1 < n then createProbe x q (n - 1) b else b
     | none => createProbe x q (n - 1) b)
  | none => b

/-- A length beyond seven spacings is flagged and counted. -/
def flagCoverage (x : Ctx) (q n : Nat) (b : Blocks) : Blocks :=
  if 7 * x.cfg.probeSpacing < n then
    (b.modTrack (modSeg q (modFlags fun f => { f with coverageShort := true }))).modOven fun o =>
      { o with coverageShort := inc16 o.coverageShort }
  else b

theorem ovenClosed_eq (x : Ctx) (q n : Nat) (b : Blocks) :
    ovenClosed x q n b = flagCoverage x q n (completeProbes x q n (cutProbes q n b)) := rfl

/-- The last of a list of probes in order is the one at the end of a length that holds them all, or none is. -/
theorem ends_iff_mem {ps : List Probe} {n : Nat} {p : Probe} (sorted : (ps ++ [p]).Pairwise (·.rel < ·.rel))
    (below : ∀ r ∈ ps ++ [p], r.rel < n) : p.rel + 1 < n ↔ n - 1 ∉ (ps ++ [p]).map (·.rel) := by
  have last : p.rel < n := below p (by simp)
  have first : ∀ r ∈ ps, r.rel < p.rel := fun r held => (List.pairwise_append.mp sorted).2.2 r held p (by simp)
  constructor
  · intro short there
    obtain ⟨r, held, ends⟩ := List.mem_map.mp there
    rcases List.mem_append.mp held with before | at_end
    · have := first r before
      omega
    · rw [List.mem_singleton.mp at_end] at ends
      omega
  · intro absent
    by_contra ends
    exact absent (List.mem_map.mpr ⟨p, by simp, by omega⟩)

theorem completeProbes_eq {b : Blocks} {q n : Nat} {g : Segment} (found : b.track.find q = some g) (x : Ctx)
    (sorted : g.probes.Pairwise (·.rel < ·.rel)) (below : ∀ p ∈ g.probes, p.rel < n) :
    completeProbes x q n b = if n - 1 ∈ g.probes.map (·.rel) then b else createProbe x q (n - 1) b := by
  simp only [completeProbes, found]
  rcases List.eq_nil_or_concat g.probes with empty | ⟨ps, p, list⟩
  · simp [empty]
  · rw [List.concat_eq_append] at list
    rw [list] at sorted below ⊢
    rw [List.getLast?_concat]
    simp only [ends_iff_mem sorted below, ite_not]

/-- A length beyond seven spacings is flagged and counted, another is not (R128). -/
theorem flagCoverage_covers (x : Ctx) (n : Nat) {b : Blocks} {q : Nat} {g : Segment} (found : b.track.find q = some g) :
    let b' := flagCoverage x q n b
    ∃ g', b'.track.find q = some g' ∧ g'.probes = g.probes ∧ g'.gainedUnder = g.gainedUnder ∧ g'.gainedOver = g.gainedOver ∧
      (7 * x.cfg.probeSpacing < n → g'.flags.coverageShort = true ∧
        b'.oven.coverageShort = inc16 b.oven.coverageShort) ∧
      (n ≤ 7 * x.cfg.probeSpacing → g'.flags = g.flags) := by
  unfold flagCoverage
  dsimp only
  split
  · rename_i long
    exact ⟨_, found_modSeg found, rfl, rfl, rfl, fun _ => ⟨rfl, rfl⟩, fun short => absurd long (Nat.not_lt.mpr short)⟩
  · rename_i short
    exact ⟨g, found, rfl, rfl, rfl, fun long => absurd long short, fun _ => rfl⟩

section Closure
variable {x : Ctx} {b : Blocks} {q n : Nat} {g : Segment} (found : b.track.find q = some g)
include found

theorem cutProbes_find : (cutProbes q n b).track.find q =
    some { g with probes := g.probes.filter fun p => decide (p.rel < n) } := found_modSeg found

/-- The probes of a segment whose length is fixed, the flag apart. -/
theorem completeProbes_closed (positive : 0 < n) (sorted : g.probes.Pairwise (·.rel < ·.rel)) :
    let kept := (g.probes.map (·.rel)).filter (· < n)
    let b' := completeProbes x q n (cutProbes q n b)
    VerdictCounts b.oven b'.oven ∧ ∃ g', b'.track.find q = some g' ∧ KeepsGained g g' ∧
      g'.probes.map (·.rel) = if n - 1 ∈ kept then kept else kept ++ [n - 1] := by
  have kept : (g.probes.map (·.rel)).filter (· < n) = (g.probes.filter fun p => decide (p.rel < n)).map (·.rel) :=
    List.filter_map ..
  have below : ∀ p ∈ g.probes.filter fun p => decide (p.rel < n), p.rel < n := fun p held => by
    simpa using List.of_mem_filter held
  dsimp only
  rw [kept, completeProbes_eq (cutProbes_find found) x (sorted.filter _) below]
  split
  · exact ⟨.refl _, _, cutProbes_find found, ⟨rfl, id, id⟩, rfl⟩
  · rename_i absent
    have short : ∀ p ∈ g.probes.filter fun p => decide (p.rel < n), p.rel < n - 1 := fun p held => by
      have at_most := below p held
      have other : p.rel ≠ n - 1 := fun ends => absent (List.mem_map.mpr ⟨p, held, ends⟩)
      omega
    obtain ⟨g', found', ⟨verdict, _, probes⟩, keeps⟩ :=
      createProbe_created (cutProbes_find found) x fun p held => (short p held).ne
    refine ⟨createProbe_counts (cutProbes_find found) x, g', found',
      ⟨keeps.flags, keeps.gainedUnder, keeps.gainedOver⟩, ?_⟩
    rw [probes, List.takeWhile_eq_self_iff.mpr (by simpa using short),
      List.dropWhile_eq_nil_iff.mpr (by simpa using short)]
    simp [Probe.new]

end Closure

end Sys2Proof.Machine
end

section
/-! The accounting timer: the credit of each probe, and the two stages of the dwell monitor (R130, R133 to R135). -/

namespace Sys2Proof.Machine

theorem exec_accountingTimerExpiry {s : State} (running : s.blk.oven.timerRunning = true) :
    exec .accountingTimerExpiry s = .next (blockStep accountingTick s) := by
  simp only [exec, execAccountingTimerExpiry, running, if_true]

/-! ### Credits (R130) -/

section Credit
variable {o : Oven} {f : FieldLine} {p : Probe}

theorem creditProbe_outside (outside : ∀ z, p.place ≠ .zone z) (setting : Option Setting) :
    creditProbe o f setting p = p := by
  unfold creditProbe
  split
  · rfl
  · rfl
  · exact absurd ‹_› (outside _)

variable {z : Fin 8} (inside : p.place = .zone z)
include inside

theorem creditProbe_measured {v : Setting} (online : f.module[z.val + 16].online = true) :
    creditProbe o f (some v) p = { p with
      cure := if v.cureTemp ≤ o.zone[z].temp then inc16 p.cure else p.cure
      scorch := if v.scorchTemp ≤ o.zone[z].temp then inc16 p.scorch else p.scorch } := by
  simp only [creditProbe, inside, online, if_true, credit, decide_eq_true_eq]

theorem creditProbe_unmeasured {setting : Option Setting}
    (unmeasured : setting = none ∨ f.module[z.val + 16].online = false) :
    creditProbe o f setting p = { p with unverified := inc16 p.unverified } := by
  cases setting with
  | none => simp only [creditProbe, inside]
  | some v =>
    have lost : f.module[z.val + 16].online = false := unmeasured.resolve_left (by simp)
    simp only [creditProbe, inside, lost, Bool.false_eq_true, if_false]

end Credit

/-- A credit leaves a probe where it is. -/
theorem creditProbe_place (o : Oven) (f : FieldLine) (setting : Option Setting) (p : Probe) :
    (creditProbe o f setting p).place = p.place := by
  unfold creditProbe
  split
  · rfl
  · rfl
  · split
    · split <;> rfl
    · rfl

/-- The number of probes in zones, by their places alone. -/
theorem probesInZones_eq (t : Track) :
    probesInZones t = ((t.segs.flatMap fun g => g.probes.map (·.place)).filter Place.inZone).length := by
  rw [probesInZones, ← List.map_flatMap, List.filter_map, List.length_map]
  rfl

theorem probesInZones_credited (b : Blocks) : probesInZones (creditProbes b).track = probesInZones b.track := by
  simp only [probesInZones_eq, creditProbes, Blocks.modTrack_track, List.flatMap_map, List.map_map, Function.comp_def,
    creditProbe_place]

/-- While the line advances the timer's expiry credits the probes and does nothing else. -/
theorem accountingTick_advancing {x : Ctx} (advancing : x.motion.state = .advancing) (b : Blocks) :
    accountingTick x b = creditProbes b :=
  if_neg fun h => h.1 advancing

/-! ### The dwell monitor (R133) -/

/-- The blocks with the dwell count risen. -/
def dwellRisen (b : Blocks) : Blocks := b.modOven fun o => { o with dwellCount := o.dwellCount + 1 }

/-- What an expiry does on a line that does not advance, with probes in zones. -/
theorem accountingTick_dwelling {x : Ctx} {b : Blocks} (away : x.motion.state ≠ .advancing)
    (inside : 0 < probesInZones b.track) (below : b.oven.dwellStage < 2) : accountingTick x b =
    if b.oven.dwellStage = 0 ∧ 10 * x.cfg.stage1 ≤ b.oven.dwellCount + 1 then
      enterStandby x.cfg (dwellRisen (creditProbes b))
    else if b.oven.dwellStage = 1 ∧ 10 * x.cfg.stage2 ≤ b.oven.dwellCount + 1 then
      enterVent x.cfg (dwellRisen (creditProbes b))
    else dwellRisen (creditProbes b) :=
  if_pos ⟨away, by rwa [probesInZones_credited], below⟩

section Stages
variable {x : Ctx} {b : Blocks} (away : x.motion.state ≠ .advancing) (inside : 0 < probesInZones b.track)
include away inside

theorem accountingTick_counting (stage : b.oven.dwellStage = 0) (short : b.oven.dwellCount + 1 < 10 * x.cfg.stage1) :
    accountingTick x b = dwellRisen (creditProbes b) := by
  rw [accountingTick_dwelling away inside (by omega), if_neg (by omega), if_neg (by omega)]

theorem accountingTick_standby (stage : b.oven.dwellStage = 0) (reached : 10 * x.cfg.stage1 ≤ b.oven.dwellCount + 1) :
    accountingTick x b = enterStandby x.cfg (dwellRisen (creditProbes b)) := by
  rw [accountingTick_dwelling away inside (by omega), if_pos ⟨stage, reached⟩]

theorem accountingTick_vent (stage : b.oven.dwellStage = 1) (reached : 10 * x.cfg.stage2 ≤ b.oven.dwellCount + 1) :
    accountingTick x b = enterVent x.cfg (dwellRisen (creditProbes b)) := by
  rw [accountingTick_dwelling away inside (by omega), if_neg (by omega), if_pos ⟨stage, reached⟩]

end Stages

/-- A zone after a change of every listed one. -/
theorem modZones_zone (c : Anchor) (f : Zone → Zone) (o : Oven) (z : Fin 8) :
    (modZones c f o).zone[z] = if z.val < c.zoneCount then f o.zone[z] else o.zone[z] := by
  simp only [modZones, tabulate_get, listed, decide_eq_true_eq]

/-! ### Stage 1 (R134) -/

theorem enterStandby_oven (c : Anchor) (b : Blocks) : (enterStandby c b).oven =
    { modZones c (fun r => if r.mode = .run then { r with mode := .standby } else r) b.oven with
      dwellStage := 1, standbys := inc16 b.oven.standbys } :=
  raiseAt_oven ..

theorem enterStandby_zone (c : Anchor) (b : Blocks) (z : Fin 8) : (enterStandby c b).oven.zone[z] =
    if z.val < c.zoneCount ∧ b.oven.zone[z].mode = .run then { b.oven.zone[z] with mode := .standby }
    else b.oven.zone[z] := by
  simp only [enterStandby_oven, modZones_zone, ite_and]

/-! ### Stage 2 (R135) -/

/-- The blocks with every listed zone in VENT. -/
def vented (c : Anchor) (b : Blocks) : Blocks :=
  b.modOven fun o => { modZones c (fun r => { r with mode := .vent }) o with dwellStage := 2 }

/-- The probes of a list are forced OVERCURED. -/
def forceProbes (l : List (Nat × Nat × Nat)) (b : Blocks) : Blocks :=
  l.foldl (fun b i => giveVerdict i.1 i.2.1 i.2.2 .overcured b) b

theorem enterVent_eq (c : Anchor) (b : Blocks) : enterVent c b =
    (raise .ovenVent 0 (forceProbes (forcedProbes b.track) (vented c b))).modOven fun o =>
      { o with vents := inc16 o.vents } := rfl

theorem forceProbes_counts (l : List (Nat × Nat × Nat)) (b : Blocks) : VerdictCounts b.oven (forceProbes l b).oven := by
  induction l generalizing b with
  | nil => exact .refl _
  | cons i l ih =>
    refine .trans ?_ (ih _)
    rw [giveVerdict_oven]
    exact countVerdict_counts ..

theorem forceProbes_live (l : List (Nat × Nat × Nat)) (b : Blocks) : (forceProbes l b).live = b.live :=
  (foldl_calm (fun _ _ h => giveVerdict_calm h) l (.refl b)).live

/-- The oven after stage 2: the verdict counts apart, what the venting gives, and the vent counted. -/
theorem enterVent_oven (c : Anchor) (b : Blocks) : ∃ o, VerdictCounts (vented c b).oven o ∧
    (enterVent c b).oven = { o with vents := inc16 b.oven.vents } := by
  have counts := forceProbes_counts (forcedProbes b.track) (vented c b)
  have vents : (forceProbes (forcedProbes b.track) (vented c b)).oven.vents = b.oven.vents := counts.vents
  refine ⟨_, counts, ?_⟩
  rw [enterVent_eq, Blocks.modOven_oven, raise, raiseAt_oven, vents]

theorem enterVent_zone (c : Anchor) (b : Blocks) {z : Fin 8} (list : z.val < c.zoneCount) :
    (enterVent c b).oven.zone[z].mode = .vent := by
  obtain ⟨o, counts, oven⟩ := enterVent_oven c b
  have zones : o.zone = (modZones c (fun r => { r with mode := .vent }) b.oven).zone := counts.zone
  simp only [oven, zones, modZones_zone, list, if_true]

theorem enterVent_raised (c : Anchor) {b : Blocks} (live : b.live = true) :
    ((enterVent c b).causes.entry .ovenVent).isSome = true := by
  have live' : (forceProbes (forcedProbes b.track) (vented c b)).live = true := (forceProbes_live ..).trans live
  rw [enterVent_eq, Blocks.modOven_causes, raise, (raiseAt_raised _ _ _ _ live').1]
  rfl

/-- Every probe in a zone with verdict PENDING is named by a list. -/
def PendingNamed (l : List (Nat × Nat × Nat)) (t : Track) : Prop :=
  ∀ g ∈ t.segs, ∀ p ∈ g.probes, p.place.inZone = true → p.verdict = .pending → ∃ source, (source, g.seq, p.rel) ∈ l

theorem forcedProbes_named (t : Track) : PendingNamed (forcedProbes t) t := by
  intro g segment p probe inside pending
  cases place : p.place with
  | zone z =>
    refine ⟨z.val + 1, List.mem_flatMap.mpr ⟨g, segment, List.mem_filterMap.mpr ⟨p, probe, ?_⟩⟩⟩
    simp only [place, pending, if_true]
  | before | after => simp [place, Place.inZone] at inside

/-- A verdict given to the first of the list leaves its probes no longer PENDING. -/
theorem PendingNamed.forced {l : List (Nat × Nat × Nat)} {i : Nat × Nat × Nat} {b : Blocks}
    (named : PendingNamed (i :: l) b.track) : PendingNamed l (giveVerdict i.1 i.2.1 i.2.2 .overcured b).track := by
  obtain ⟨source, q, rel⟩ := i
  have later {g : Segment} {p : Probe} (other : g.seq ≠ q ∨ p.rel ≠ rel) (held : g ∈ b.track.segs) (probe : p ∈ g.probes)
      (inside : p.place.inZone = true) (pending : p.verdict = .pending) : ∃ source, (source, g.seq, p.rel) ∈ l := by
    obtain ⟨source', first | rest⟩ := (named g held p probe inside pending).imp fun _ => List.mem_cons.mp
    · simp only [Prod.mk.injEq] at first
      exact absurd first.2 (not_and_or.mpr other)
    · exact ⟨source', rest⟩
  rw [giveVerdict_track]
  intro _ segment p probe inside pending
  obtain ⟨g, held, rfl⟩ := List.mem_map.mp segment
  by_cases own : g.seq = q
  · rw [if_pos own] at probe ⊢
    obtain ⟨old, apart⟩ := mem_verdictAt probe (by simp [pending])
    exact later (g := g) (.inr apart) held old inside pending
  · rw [if_neg own] at probe ⊢
    exact later (.inl own) held probe inside pending

theorem forceProbes_named (l : List (Nat × Nat × Nat)) {b : Blocks} (named : PendingNamed l b.track) :
    PendingNamed [] (forceProbes l b).track := by
  induction l generalizing b with
  | nil => exact named
  | cons i l ih => exact ih named.forced

/-- The dwell count rises whether or not a stage is entered. -/
theorem accountingTick_dwellCount {x : Ctx} {b : Blocks} (away : x.motion.state ≠ .advancing)
    (inside : 0 < probesInZones b.track) (below : b.oven.dwellStage < 2) :
    (accountingTick x b).oven.dwellCount = b.oven.dwellCount + 1 := by
  rw [accountingTick_dwelling away inside below]
  split
  · rw [enterStandby_oven]
    rfl
  · split
    · obtain ⟨o, counts, oven⟩ := enterVent_oven x.cfg (dwellRisen (creditProbes b))
      rw [oven]
      exact counts.dwellCount
    · rfl

/-- No probe in a zone stays PENDING after stage 2. -/
theorem enterVent_settled (c : Anchor) (b : Blocks) :
    ∀ g ∈ (enterVent c b).track.segs, ∀ p ∈ g.probes, p.place.inZone = true → p.verdict ≠ .pending := by
  intro g segment p probe inside pending
  rw [enterVent_eq, Blocks.modOven_track, raise, raiseAt_track_other _ _ _ _ (by decide)] at segment
  obtain ⟨_, gone⟩ := forceProbes_named _ (b := vented c b) (forcedProbes_named b.track) g segment p probe inside pending
  cases gone

end Sys2Proof.Machine
end

section
/-! The statements about the oven unit: probes, zones and the dwell monitor (R120 to R122, R127 to R135). -/

namespace Sys2Proof.Machine

/-- Settles O45: the credits, the creation and the closure of probes, and their judgement. -/
theorem probesAreMadeCreditedAndJudged : Obligations.ProbesAreMadeCreditedAndJudged := by
  refine ⟨⟨fun s running advancing => ?_, fun o f setting p => ⟨fun outside => ?_, fun z inside => ⟨fun v set online => ?_,
      fun unmeasured => ?_⟩⟩⟩,
    ⟨fun _ _ _ => rfl, fun x b g k entering => growProbe_due entering x k, fun x b g print => if_pos print,
      fun x b q rel g found fresh => ?_, fun x b q n g found positive sorted => ?_⟩,
    fun x b q rel g p live found held => ⟨fun kept => ?_, fun past pending => ⟨?_, ?_⟩⟩,
    judgeProbe_rows, fun _ _ => ⟨rfl, rfl⟩⟩
  · have follows := blockStep_follows accountingTick s
    rw [accountingTick_advancing (x := s.ctx) advancing] at follows
    exact ⟨_, exec_accountingTimerExpiry running, follows⟩
  · exact creditProbe_outside outside setting
  · rw [set]
    exact creditProbe_measured inside online
  · exact creditProbe_unmeasured inside unmeasured
  · obtain ⟨g', found', ⟨verdict, inside, probes⟩, _⟩ := createProbe_created found x fresh
    refine ⟨g', { Probe.new rel with place := placeOf x (g.head + rel), verdict := verdict }, found', ?_, ?_,
      rfl, rfl, rfl, rfl, rfl, rfl, inside⟩
    · rw [probes]
      simp
    · have kept : g.probes.filter (fun p => decide (p.rel ≠ rel)) = g.probes :=
        List.filter_eq_self.mpr fun p held => decide_eq_true (fresh p held)
      rw [probes, List.filter_append, List.filter_cons_of_neg (by simp [Probe.new]), ← List.filter_append,
        List.takeWhile_append_dropWhile, kept]
  · obtain ⟨counts, g₁, found₁, keeps, probes⟩ := completeProbes_closed (x := x) found positive sorted
    obtain ⟨g₂, found₂, same, gainedUnder, gainedOver, long, short⟩ := flagCoverage_covers x n found₁
    rw [ovenClosed_eq]
    refine ⟨g₂, found₂, ?_, ?_, ?_, fun beyond => ?_, fun within => ?_⟩
    · rw [same, probes]
    · exact fun gained => gainedUnder.trans (keeps.gainedUnder gained)
    · exact fun gained => gainedOver.trans (keeps.gainedOver gained)
    · rw [← counts.coverageShort]
      exact long beyond
    · exact (short within).trans keeps.flags
  · exact placeProbe_moved found held kept
  · exact placeProbe_judged_track found held past pending
  · exact placeProbe_judged_causes found held past pending live

/-- Settles O46: what a zone takes of the track, the setpoint in force, and the dwell monitor's stages. -/
theorem zonesFollowTheTrackAndTheDwellMonitor : Obligations.ZonesFollowTheTrackAndTheDwellMonitor := by
  refine ⟨⟨fun x b z => ⟨fun j other => refreshZone_other x b other, ?_⟩, refreshZones_zone,
    fun c r => ⟨fun run => setpointInForce_run run c, fun away => setpointInForce_away away c⟩⟩,
    fun s live running away inside below => ?_⟩
  · rw [refreshZone_same]
    refine ⟨fun off => zoneTaking_off off .., fun q at_q => ?_⟩
    rw [at_q]
    refine ⟨fun recorded => zoneTaking_again at_q recorded _, fun new => ?_⟩
    rw [zoneTaking_boundary at_q new]
    refine ⟨fun g v found setting => ?_, fun unset => ?_⟩
    · rw [found, Option.bind_some, setting]
      rfl
    · rw [Option.bind_eq_none_iff.mpr unset]
      rfl
  · obtain ⟨⟨_, motion, mem, _, causes, track, _, _, _, oven, field, _⟩, _⟩ := blockStep_follows accountingTick s
    simp only [State.setBlk_blk] at causes track oven field
    refine ⟨_, exec_accountingTimerExpiry running, ?_⟩
    rw [causes, track, oven, field]
    refine ⟨accountingTick_dwellCount away inside below, motion, mem,
      (accountingTick_calm (.refl s.blk) s.ctx).field, (accountingTick_web (.refl s.blk) s.ctx).track.shapes,
      fun stage short => ?_, fun stage reached => ?_, fun stage reached => ?_⟩
    · rw [accountingTick_counting (x := s.ctx) away inside stage short]
      exact ⟨rfl, rfl⟩
    · rw [accountingTick_standby (x := s.ctx) away inside stage reached]
      refine ⟨?_, ?_, raiseAt_raised .ovenStandby 0 .report _ live, fun z => enterStandby_zone ..⟩
      · rw [enterStandby_oven]
      · rw [enterStandby_oven]
        rfl
    · rw [accountingTick_vent (x := s.ctx) away inside stage reached]
      obtain ⟨o, counts, vented⟩ := enterVent_oven s.cfg (dwellRisen (creditProbes s.blk))
      refine ⟨?_, ?_, enterVent_raised _ live, fun z list => enterVent_zone _ _ list, enterVent_settled _ _⟩
      · exact (congrArg Oven.dwellStage vented).trans counts.dwellStage
      · exact congrArg Oven.vents vented

end Sys2Proof.Machine
end

section
/-! A reply is judged: the checks in order, and the contents of one that passes them (R147, R200). -/

namespace Sys2Proof.Machine

section Checks
variable {address : Nat} {screen selector : Bool}

theorem judgeReply_framing (bytes : List Byte) : judgeReply address screen selector true bytes = .error .framing := rfl

theorem judgeReply_length {bytes : List Byte} (other : bytes.length ≠ 7) :
    judgeReply address screen selector false bytes = .error .length := by
  unfold judgeReply
  rw [if_neg (by decide)]
  split
  · exact absurd rfl other
  · rfl

variable {b1 b2 b3 b4 b5 b6 b7 : Byte}

/-- Seven characters without a framing error: the CRC, the address, and then the contents. -/
theorem judgeReply_seven : judgeReply address screen selector false [b1, b2, b3, b4, b5, b6, b7] =
    if crc8 [b1, b2, b3, b4, b5, b6] ≠ b7 then .error .crc
    else if b1.toNat ≠ address then .error .address
    else (replyContents screen selector b2 b3 b4 b5 b6).elim (.error .content) .ok := by
  unfold judgeReply
  rw [if_neg (by decide)]
  dsimp only
  cases replyContents screen selector b2 b3 b4 b5 b6 <;> rfl

theorem judgeReply_crc (bad : crc8 [b1, b2, b3, b4, b5, b6] ≠ b7) :
    judgeReply address screen selector false [b1, b2, b3, b4, b5, b6, b7] = .error .crc := by
  rw [judgeReply_seven, if_pos bad]

variable (crc : crc8 [b1, b2, b3, b4, b5, b6] = b7)
include crc

theorem judgeReply_address (other : b1.toNat ≠ address) :
    judgeReply address screen selector false [b1, b2, b3, b4, b5, b6, b7] = .error .address := by
  rw [judgeReply_seven, if_neg (not_not.mpr crc), if_pos other]

theorem judgeReply_contents (own : b1.toNat = address) :
    judgeReply address screen selector false [b1, b2, b3, b4, b5, b6, b7] =
      (replyContents screen selector b2 b3 b4 b5 b6).elim (.error .content) .ok := by
  rw [judgeReply_seven, if_neg (not_not.mpr crc), if_neg (not_not.mpr own)]

end Checks

/-! ### The contents (R147, R200) -/

theorem beNat_eq (hi lo : Byte) : beNat hi lo = 256 * hi.toNat + lo.toNat := by
  rw [beNat, Nat.mul_comm]

theorem liftPosition_ofCode_code (p : LiftPosition) : LiftPosition.ofCode p.code = some p := by
  cases p <;> rfl

section Contents
variable {selector : Bool} {b2 b3 b4 b5 b6 : Byte}

theorem replyContents_selector (other : b2.getLsbD 3 ≠ selector) (screen : Bool) :
    replyContents screen selector b2 b3 b4 b5 b6 = none := if_pos other

variable (own : b2.getLsbD 3 = selector)
include own

theorem replyContents_screen : replyContents true selector b2 b3 b4 b5 b6 =
    (LiftPosition.ofCode (b2.toNat % 4)).map fun p =>
      (.screen p (signed 16 (256 * b3.toNat + b4.toNat)) (b2.getLsbD 2), 256 * b5.toNat + b6.toNat) := by
  rw [← beNat_eq, ← beNat_eq]
  exact if_neg (not_not.mpr own)

theorem replyContents_zone : replyContents false selector b2 b3 b4 b5 b6 =
    if 256 * b3.toNat + b4.toNat ≤ 2500
      then some (.zone (256 * b3.toNat + b4.toNat) (b2.getLsbD 2), 256 * b5.toNat + b6.toNat) else none := by
  rw [← beNat_eq, ← beNat_eq]
  exact if_neg (not_not.mpr own)

end Contents

end Sys2Proof.Machine
end

section
/-! A good reply: the module's entry, the causes it raises, and what is handed on (R149, R150, R152 to R154). -/

namespace Sys2Proof.Machine

/-! ### Work on one module's entry that may raise a cause -/

/-- Module `a`'s entry becomes `m`, and a cause of a kind is raised where claimed; nothing else but an owed rewrite
moves. -/
structure EntryTaken (a : Fin 24) (k : CauseKind) (claimed : Bool) (m : Module) (b c : Blocks) : Prop where
  rest : c = ((b.setField { b.field with module := b.field.module.set a m }).setCauses c.causes).setReport c.report
  raised : claimed = true → Raised k (a.val + 1) k.level b.causes c.causes
  kept : claimed = false → c.causes = b.causes

theorem entryTaken {b : Blocks} (live : b.live = true) {k : CauseKind} (known : k ≠ .trackUncertain) (a : Fin 24)
    (claimed : Bool) (f : Module → Module) : EntryTaken a k claimed (f b.field.module[a]) b
      (if claimed then raise k (moduleSource a) (modModule a f b) else modModule a f b) := by
  cases claimed with
  | false => exact ⟨rfl, nofun, fun _ => rfl⟩
  | true =>
    refine ⟨?_, fun _ => raiseAt_raised k (a.val + 1) k.level (modModule a f b) live, nofun⟩
    rw [if_pos rfl, raise]
    conv_lhs => rw [raiseAt_eq, raiseAt_track_other k _ _ _ known]
    rw [raiseAt_report]
    rfl

theorem EntryTaken.field {a : Fin 24} {k : CauseKind} {claimed : Bool} {m : Module} {b c : Blocks}
    (h : EntryTaken a k claimed m b c) : c.field = { b.field with module := b.field.module.set a m } :=
  congrArg Blocks.field h.rest

/-- The entries of the other kinds stay. -/
theorem EntryTaken.other {a : Fin 24} {j k : CauseKind} {claimed : Bool} {m : Module} {b c : Blocks}
    (h : EntryTaken a k claimed m b c) (other : j ≠ k) : c.causes.entry j = b.causes.entry j := by
  cases claimed with
  | true => exact (h.raised rfl).2 j other
  | false => rw [h.kept rfl]

/-- The fault marker follows the fault bit, and MODULE_FAULT is raised as it comes to be set (R152). -/
theorem takeFault_taken {b : Blocks} (live : b.live = true) (a : Fin 24) (fault : Bool) :
    EntryTaken a .moduleFault (fault && !b.field.module[a].faultMarker)
      { b.field.module[a] with faultMarker := fault } b (takeFault a fault b) :=
  entryTaken live (by decide) a _ fun m => { m with faultMarker := fault }

/-- A module's entry with the item that the selector names (R153). -/
def Module.withItem (selector : Bool) (value : Nat) (m : Module) : Module :=
  { m with
    item0 := if selector then m.item0 else some (min 1000 value)
    item1 := if selector then some (min 1000 value) else m.item1 }

/-- The item is taken, and PASTE_LOW is raised as a screen's PASTE_LEVEL falls (R153, R154). -/
theorem takeItem_taken {b : Blocks} (live : b.live = true) (a : Fin 24) (selector : Bool) (value : Nat) :
    EntryTaken a .pasteLow (!selector && pasteFalls a b.field.module[a].item0 (min 1000 value))
      (b.field.module[a].withItem selector value) b (takeItem a selector value b) := by
  cases selector
  · exact entryTaken live (by decide) a _ (Module.withItem false value)
  · exact entryTaken live (by decide) a false (Module.withItem true value)

theorem pasteFalls_iff (a : Fin 24) (old : Option Nat) (new : Nat) : pasteFalls a old new = true ↔
    a.val < 16 ∧ new < 100 ∧ ∀ v, old = some v → 100 ≤ v := by
  cases old <;> simp [pasteFalls, and_assoc]

/-! ### The cause of one kind -/

/-- The entry of a kind is as a raise claim leaves it where the kind is claimed, and as it was elsewhere. -/
def EntryRaised (k : CauseKind) (source : Nat) (level : Level) (claimed : Prop) (cs cs' : CauseSet) : Prop :=
  (claimed → ∃ c, Raised k source level cs c ∧ cs'.entry k = c.entry k) ∧ (¬ claimed → cs'.entry k = cs.entry k)

/-- Work that may raise a kind, between work that leaves the kind's entry. -/
theorem EntryTaken.entryRaised {a : Fin 24} {k : CauseKind} {claimed : Bool} {m : Module} {b c : Blocks}
    (h : EntryTaken a k claimed m b c) {cs cs' : CauseSet} (before : b.causes.entry k = cs.entry k)
    (after : cs'.entry k = c.causes.entry k) {p : Prop} (claims : claimed = true ↔ p) :
    EntryRaised k (a.val + 1) k.level p cs cs' := by
  constructor
  · intro claim
    have raised := (h.raised (claims.mpr claim)).1
    rw [before, ← after] at raised
    exact ⟨cs.set k.number (cs'.entry k), ⟨(entry_set_self ..).trans raised, fun j other => entry_set_other _ _ _ _ other⟩,
      (entry_set_self ..).symm⟩
  · intro unclaimed
    rw [after, h.kept (Bool.eq_false_iff.mpr (mt claims.mp unclaimed)), before]

/-! ### What every good reply does (R149, R152 to R154) -/

/-- The module's entry as the reply is kept and its state moved, as its configuration says (log 29). -/
def repliedEntry (present : Bool) (r : GoodReply) (m : Module) : Module :=
  { (if present then m.answered else m) with lastGood := some r }

/-- The blocks after a good reply, before anything is handed on. -/
def replied (present : Bool) (a : Fin 24) (selector : Bool) (r : GoodReply) (item : Nat) (b : Blocks) : Blocks :=
  takeItem a selector item (takeFault a r.fault (modModule a (repliedEntry present r) b))

/-- The state of a module stands apart from the rest of its entry. -/
theorem answered_outside (m : Module) : m.answered.faultMarker = m.faultMarker ∧ m.answered.selector = m.selector ∧
    m.answered.item0 = m.item0 ∧ m.answered.item1 = m.item1 := by
  unfold Module.answered
  split
  · exact ⟨rfl, rfl, rfl, rfl⟩
  · split <;> exact ⟨rfl, rfl, rfl, rfl⟩

/-- The reply kept does not touch the state. -/
theorem answered_lastGood (r : GoodReply) (m : Module) :
    ({ m with lastGood := some r } : Module).answered = { m.answered with lastGood := some r } := by
  unfold Module.answered
  dsimp only
  split
  · rfl
  · split <;> rfl

theorem modModule_modModule (a : Fin 24) (f g : Module → Module) (b : Blocks) :
    modModule a g (modModule a f b) = modModule a (fun m => g (f m)) b := by
  have twice : Bank.modify (Bank.modify b.field.module a f) a g = Bank.modify b.field.module a fun m => g (f m) := by
    simp [Bank.modify]
  exact congrArg (fun v => b.setField { b.field with module := v }) twice

theorem goodReply_eq (x : Ctx) (a : Fin 24) (selector : Bool) (r : GoodReply) (item : Nat) (b : Blocks) :
    goodReply x a selector r item b =
      if configured x b a then handReply x a r (replied true a selector r item b)
      else replied false a selector r item b := by
  have moved : modModule a Module.answered (modModule a (fun m => { m with lastGood := some r }) b) =
      modModule a (repliedEntry true r) b := by
    rw [modModule_modModule]
    simp only [answered_lastGood]
    rfl
  unfold goodReply
  dsimp only
  rw [moved]
  rfl

section Replied
variable {b : Blocks} (live : b.live = true) (present : Bool) (a : Fin 24) (selector : Bool) (r : GoodReply) (item : Nat)

/-- The module's entry after a good reply, its selector apart. -/
def repliedModule (m : Module) : Module :=
  { repliedEntry present r m with faultMarker := r.fault }.withItem selector item

theorem repliedEntry_outside (m : Module) : (repliedEntry present r m).faultMarker = m.faultMarker ∧
    (repliedEntry present r m).selector = m.selector ∧ (repliedEntry present r m).item0 = m.item0 ∧
    (repliedEntry present r m).item1 = m.item1 := by
  cases present
  · exact ⟨rfl, rfl, rfl, rfl⟩
  · exact answered_outside m

/-- The entry after the toggle of its selector. -/
theorem toggled_repliedModule (m : Module) :
    { repliedModule present selector r item m with selector := !(repliedModule present selector r item m).selector } =
      { (if present then m.answered else m) with
        lastGood := some r, faultMarker := r.fault, selector := !m.selector
        item0 := if selector then m.item0 else some (min 1000 item)
        item1 := if selector then some (min 1000 item) else m.item1 } := by
  obtain ⟨-, selected, item0, item1⟩ := repliedEntry_outside present r m
  simp only [repliedModule, Module.withItem, selected, item0, item1]
  rfl

include live

/-- The two steps of a good reply that may raise: the fault bit, then the item. -/
theorem replied_steps : ∃ c : Blocks,
    EntryTaken a .moduleFault (r.fault && !b.field.module[a].faultMarker)
      { repliedEntry present r b.field.module[a] with faultMarker := r.fault }
      (modModule a (repliedEntry present r) b) c ∧
    EntryTaken a .pasteLow (!selector && pasteFalls a b.field.module[a].item0 (min 1000 item))
      (repliedModule present selector r item b.field.module[a]) c (replied present a selector r item b) := by
  obtain ⟨marker, -, item0, -⟩ := repliedEntry_outside present r b.field.module[a]
  have fault := takeFault_taken (b := modModule a (repliedEntry present r) b) live a r.fault
  rw [modModule_same, marker] at fault
  have entry : (takeFault a r.fault (modModule a (repliedEntry present r) b)).field.module[a] =
      { repliedEntry present r b.field.module[a] with faultMarker := r.fault } := by
    rw [fault.field]
    simp
  have item := takeItem_taken (b := takeFault a r.fault (modModule a (repliedEntry present r) b))
    (by rw [fault.rest]; exact live) a selector item
  rw [(congrArg Module.item0 entry).trans item0, entry] at item
  exact ⟨_, fault, item⟩

theorem replied_field : (replied present a selector r item b).field = { b.field with
    module := b.field.module.set a (repliedModule present selector r item b.field.module[a]) } := by
  obtain ⟨c, fault, item⟩ := replied_steps live present a selector r item
  rw [item.field, fault.field]
  simp [modModule, Blocks.modField, Bank.modify]

/-- Beyond the field line, the causes and the report unit nothing moves. -/
theorem replied_rest : ∃ f cs u, replied present a selector r item b = ((b.setField f).setCauses cs).setReport u := by
  obtain ⟨c, fault, item⟩ := replied_steps live present a selector r item
  exact ⟨_, _, _, item.rest.trans (by rw [fault.rest]; rfl)⟩

theorem replied_moduleFault : EntryRaised .moduleFault (a.val + 1) .hold
    (r.fault = true ∧ b.field.module[a].faultMarker = false) b.causes (replied present a selector r item b).causes := by
  obtain ⟨c, fault, item⟩ := replied_steps live present a selector r item
  exact fault.entryRaised rfl (item.other (by decide)) (by simp)

theorem replied_pasteLow : EntryRaised .pasteLow (a.val + 1) .report
    (selector = false ∧ a.val < 16 ∧ min 1000 item < 100 ∧ ∀ v, b.field.module[a].item0 = some v → 100 ≤ v)
    b.causes (replied present a selector r item b).causes := by
  obtain ⟨c, fault, item⟩ := replied_steps live present a selector r item
  exact item.entryRaised (fault.other (by decide)) rfl (by simp [pasteFalls_iff])

end Replied

/-! ### The reply handed on (R105, R113, R150) -/

/-- Work of a station or a zone on a reply: the field line and the causes but LIFT_FAULT stay. -/
structure ReplyHanded (a b : Blocks) : Prop where
  field : b.field = a.field
  causes : ∀ j, j ≠ .liftFault → b.causes.entry j = a.causes.entry j

theorem ReplyHanded.trans {a b c : Blocks} (h : ReplyHanded a b) (k : ReplyHanded b c) : ReplyHanded a c :=
  ⟨k.field.trans h.field, fun j other => (k.causes j other).trans (h.causes j other)⟩

theorem evaluateWant_handed (x : Ctx) (b : Blocks) (k : Fin 16) : ReplyHanded b (evaluateWant x b k) := by
  rw [evaluateWant_eq]
  exact ⟨rfl, fun _ _ => rfl⟩

theorem liftUnexpected_handed (x : Ctx) (k : Fin 16) (b : Blocks) : ReplyHanded b (liftUnexpected x k b) :=
  .trans (b := raise .liftFault (screenSource k) ((modStation k (enterFault .unexpected) b).modStations
    fun s => { s with liftFaults := inc16 s.liftFaults }))
    ⟨raiseAt_field .., fun _ other => raiseAt_entry_other other ..⟩ (evaluateWant_handed ..)

theorem modStation_handed (k : Fin 16) (f : Station → Station) (b : Blocks) : ReplyHanded b (modStation k f b) :=
  ⟨rfl, fun _ _ => rfl⟩

theorem liftReport_handed (x : Ctx) (k : Fin 16) (r : LiftPosition) (b : Blocks) : ReplyHanded b (liftReport x k r b) := by
  unfold liftReport
  dsimp only
  split
  iterate 4 exact liftUnexpected_handed ..
  iterate 2 exact modStation_handed ..
  · split
    · exact (modStation_handed ..).trans (evaluateWant_handed ..)
    · exact ⟨rfl, fun _ _ => rfl⟩
  · exact ⟨rfl, fun _ _ => rfl⟩

theorem registration_handed (k : Fin 16) (error : Int) (b : Blocks) : ReplyHanded b (registration k error b) := by
  unfold registration
  dsimp only
  split
  · split <;> exact ⟨rfl, fun _ _ => rfl⟩
  · exact ⟨rfl, fun _ _ => rfl⟩

theorem handReply_handed (x : Ctx) (a : Fin 24) (r : GoodReply) (b : Blocks) : ReplyHanded b (handReply x a r b) := by
  have stays : ReplyHanded b b := ⟨rfl, fun _ _ => rfl⟩
  unfold handReply
  split
  · split
    · split
      · exact (registration_handed ..).trans (liftReport_handed ..)
      · exact stays
    · exact stays
  · split
    · split
      · exact ⟨rfl, fun _ _ => rfl⟩
      · exact stays
    · exact stays

theorem configured_screen {a : Fin 24} {k : Fin 16} (serves : moduleScreen a = some k) (x : Ctx) (b : Blocks) :
    configured x b a = b.stations.station[k].mount.mounted := by
  unfold moduleScreen at serves
  split at serves
  · rename_i low
    cases serves
    exact dif_pos low
  · cases serves

theorem configured_zone {a : Fin 24} {z : Fin 8} (serves : moduleZone a = some z) (x : Ctx) (b : Blocks) :
    configured x b a = listed x.cfg z := by
  unfold moduleZone at serves
  split at serves
  · rename_i high
    cases serves
    exact dif_neg (Nat.not_lt.mpr high)
  · cases serves

/-- A screen's reply goes to its station, registration first (log 15). -/
theorem handReply_screen {a : Fin 24} {k : Fin 16} (serves : moduleScreen a = some k) {x : Ctx} {b : Blocks}
    (present : configured x b a = true) (position : LiftPosition) (error : Int) (fault : Bool) :
    handReply x a (.screen position error fault) b = liftReport x k position (registration k error b) := by
  rw [configured_screen serves] at present
  simp only [handReply, serves]
  exact if_pos present

/-- A zone's reply gives the zone its temperature. -/
theorem handReply_zone {a : Fin 24} {z : Fin 8} (serves : moduleZone a = some z) {x : Ctx} {b : Blocks}
    (present : configured x b a = true) (temp : Nat) (fault : Bool) :
    handReply x a (.zone temp fault) b = modZone z (fun r => { r with temp := temp }) b := by
  rw [configured_zone serves] at present
  simp only [handReply, serves]
  exact if_pos present

theorem goodReply_handed (x : Ctx) (a : Fin 24) (selector : Bool) (r : GoodReply) (item : Nat) (b : Blocks) :
    ReplyHanded (replied (configured x b a) a selector r item b) (goodReply x a selector r item b) := by
  rw [goodReply_eq]
  cases configured x b a
  · exact ⟨rfl, fun _ _ => rfl⟩
  · exact handReply_handed ..

end Sys2Proof.Machine
end

section
/-! A closed frame is a late frame, or the reply that ends the exchange (R142, R145, R147). -/

namespace Sys2Proof.Machine

/-! ### The end of an exchange changes the field line alone (R143, R153) -/

/-- The field line alone has moved, and not the count of late frames. -/
def LineOnly (b c : Blocks) : Prop := ∃ f : FieldLine, c = b.setField f ∧ f.lateFrames = b.field.lateFrames

theorem startCycle_lineOnly (x : Ctx) (b : Blocks) : LineOnly b (startCycle x b) := by
  unfold startCycle
  dsimp only
  split <;> exact ⟨_, rfl, rfl⟩

theorem endExchange_lineOnly (x : Ctx) (a : Fin 24) (elapsed : Nat) (b : Blocks) :
    LineOnly b (endExchange x a elapsed b) := by
  unfold endExchange endCycle
  dsimp only
  split
  · exact ⟨_, rfl, rfl⟩
  · split
    · obtain ⟨f, started, late⟩ := startCycle_lineOnly x (((toggleSelector a b).modField fun f =>
        { f with exchange := none, lastDuration := min 65535 elapsed }).modField fun f =>
          { f with startOwed := false, overruns := inc16 f.overruns })
      exact ⟨f, started, late⟩
    · exact ⟨_, rfl, rfl⟩

theorem endExchange_lateFrames (x : Ctx) (a : Fin 24) (elapsed : Nat) (b : Blocks) :
    (endExchange x a elapsed b).field.lateFrames = b.field.lateFrames := by
  obtain ⟨f, only, late⟩ := endExchange_lineOnly x a elapsed b
  rw [only]
  exact late

/-! ### The command (R142) -/

section Command
variable {s : State} {bytes : List Byte} {framing : Bool} {elapsed : Nat}

theorem exec_frameClosed_driven (driven : s.blk.field.lineDriven = true) :
    exec (.frameClosed bytes framing elapsed) s = .next s :=
  if_neg fun ⟨_, released⟩ => released driven

variable (live : s.blk.live = true) (released : s.blk.field.lineDriven = false)
include live released

theorem exec_frameClosed_late (waiting : ∀ e, s.blk.field.exchange = some e → e.phase ≠ .receiving) :
    exec (.frameClosed bytes framing elapsed) s = .next (blockStep (fun _ b => lateFrame b) s) := by
  have outside : s.blk.field.inPhase .receiving = none := by
    simpa [FieldLine.inPhase, Option.filter_eq_none_iff] using waiting
  simp [exec, execFrameClosed, live, released, outside]

theorem exec_frameClosed_reply {a : Fin 24} {sel : Bool} (receiving : s.blk.field.exchange = some ⟨a, .receiving, sel⟩) :
    exec (.frameClosed bytes framing elapsed) s =
      .next (blockStep (fun x b => judgeFrame x ⟨a, .receiving, sel⟩ bytes framing elapsed b) s) := by
  simp [exec, execFrameClosed, live, released, inPhase_of_exchange receiving]

end Command

/-! ### The reply judged (R147) -/

section Judged
variable {a : Fin 24} {sel framing : Bool} {bytes : List Byte}

theorem judgeFrame_good {r : GoodReply × Nat}
    (good : judgeReply (a.val + 1) (decide (a.val < 16)) sel framing bytes = .ok r) (x : Ctx) (ph : ExchangePhase)
    (elapsed : Nat) (b : Blocks) : judgeFrame x ⟨a, ph, sel⟩ bytes framing elapsed b =
      endExchange x a elapsed (goodReply x a sel r.1 r.2 b) := by
  simp only [judgeFrame, moduleSource, good]

theorem judgeFrame_miss {reason : MissReason}
    (miss : judgeReply (a.val + 1) (decide (a.val < 16)) sel framing bytes = .error reason) (x : Ctx) (ph : ExchangePhase)
    (elapsed : Nat) (b : Blocks) : judgeFrame x ⟨a, ph, sel⟩ bytes framing elapsed b =
      missExchange x ⟨a, ph, sel⟩ reason elapsed b := by
  simp only [judgeFrame, missExchange, moduleSource, miss]

end Judged

/-- The end of a reply's exchange is no late frame, and an exchange after it waits for quiet. -/
theorem judgeFrame_next {b : Blocks} (live : b.live = true) (x : Ctx) (a : Fin 24) (ph : ExchangePhase) (sel : Bool)
    (bytes : List Byte) (framing : Bool) (elapsed : Nat) :
    QuietAtMost (judgeFrame x ⟨a, ph, sel⟩ bytes framing elapsed b) ∧
      (judgeFrame x ⟨a, ph, sel⟩ bytes framing elapsed b).field.lateFrames = b.field.lateFrames := by
  refine ⟨(endExchange_next ..).2, ?_⟩
  cases judged : judgeReply (a.val + 1) (decide (a.val < 16)) sel framing bytes with
  | ok r => rw [judgeFrame_good judged, endExchange_lateFrames, (goodReply_handed ..).field, replied_field live]
  | error reason =>
    rw [judgeFrame_miss judged, missExchange, endExchange_lateFrames, countMiss_field]
    rfl

/-- What an exchange that ends in a good reply leaves of the module table, the two causes that a reply can raise, and the
blocks that it is handed to. -/
structure ReplyTaken (s : State) (a : Fin 24) (selector : Bool) (r : GoodReply) (item : Nat) (t : State) : Prop where
  own : t.blk.field.module[a] =
    { (if configured s.ctx s.blk a then s.blk.field.module[a].answered else s.blk.field.module[a]) with
      lastGood := some r, faultMarker := r.fault, selector := !s.blk.field.module[a].selector
      item0 := if selector then s.blk.field.module[a].item0 else some (min 1000 item)
      item1 := if selector then some (min 1000 item) else s.blk.field.module[a].item1 }
  other : ∀ j : Fin 24, j ≠ a → t.blk.field.module[j] = s.blk.field.module[j]
  missCounts : t.blk.field.missCounts = s.blk.field.missCounts
  causes : ∀ j, j ≠ .liftFault →
    t.blk.causes.entry j = (replied (configured s.ctx s.blk a) a selector r item s.blk).causes.entry j
  stations : t.blk.stations = (goodReply s.ctx a selector r item s.blk).stations
  oven : t.blk.oven = (goodReply s.ctx a selector r item s.blk).oven
  track : t.blk.track = (goodReply s.ctx a selector r item s.blk).track

theorem replyTaken_of_follows {s t : State} {a : Fin 24} {selector : Bool} {r : GoodReply} {item elapsed : Nat}
    (live : s.blk.live = true)
    (follows : FollowsFrom (s.setBlk (endExchange s.ctx a elapsed (goodReply s.ctx a selector r item s.blk))) t) :
    ReplyTaken s a selector r item t := by
  obtain ⟨⟨_, _, _, _, causes, track, _, _, stations, oven, field, _⟩, _⟩ := follows
  obtain ⟨keeps, _⟩ := endExchange_next s.ctx a elapsed (goodReply s.ctx a selector r item s.blk)
  obtain ⟨f, only, _⟩ := endExchange_lineOnly s.ctx a elapsed (goodReply s.ctx a selector r item s.blk)
  have handed := goodReply_handed s.ctx a selector r item s.blk
  have line := handed.field.trans (replied_field live (configured s.ctx s.blk a) a selector r item)
  have entries : t.blk.field.module = _ := (congrArg FieldLine.module field).trans keeps.module
  constructor
  · rw [entries, toggleSelector, modModule_same, line, ← toggled_repliedModule]
    simp
  · intro j other
    rw [entries, toggleSelector, modModule_other _ other, line]
    exact set_other _ _ other
  · rw [field]
    exact keeps.missCounts.trans (congrArg FieldLine.missCounts line :)
  · intro j other
    rw [causes]
    exact (congrArg (CauseSet.entry · j) keeps.causes).trans (handed.causes j other)
  · exact stations.trans (congrArg Blocks.stations only :)
  · exact oven.trans (congrArg Blocks.oven only :)
  · exact track.trans (congrArg Blocks.track only :)

section Taken
variable {s t : State} {a : Fin 24} {selector : Bool} {r : GoodReply} {item : Nat}
variable (live : s.blk.live = true)

section Raises
variable (taken : ReplyTaken s a selector r item t)
include live taken

theorem ReplyTaken.moduleFault : EntryRaised .moduleFault (a.val + 1) .hold
    (r.fault = true ∧ s.blk.field.module[a].faultMarker = false) s.blk.causes t.blk.causes := by
  rw [EntryRaised, taken.causes _ (by decide)]
  exact replied_moduleFault live ..

theorem ReplyTaken.pasteLow : EntryRaised .pasteLow (a.val + 1) .report
    (selector = false ∧ a.val < 16 ∧ min 1000 item < 100 ∧ ∀ v, s.blk.field.module[a].item0 = some v → 100 ≤ v)
    s.blk.causes t.blk.causes := by
  rw [EntryRaised, taken.causes _ (by decide)]
  exact replied_pasteLow live ..

/-- Nothing is handed on for a module unconfigured since its exchange began (log 29). -/
theorem ReplyTaken.unconfigured (absent : configured s.ctx s.blk a = false) :
    t.blk.stations = s.blk.stations ∧ t.blk.oven = s.blk.oven ∧ t.blk.track = s.blk.track := by
  obtain ⟨f, cs, u, rest⟩ := replied_rest live false a selector r item
  rw [taken.stations, taken.oven, taken.track, goodReply_eq, absent, if_neg Bool.false_ne_true, rest]
  exact ⟨rfl, rfl, rfl⟩

end Raises

variable (present : configured s.ctx s.blk a = true)
include live present

/-- The change of state is taken before the reply is handed on (R150). -/
theorem replied_configured : ∃ f cs u,
    replied true a selector r item s.blk = ((s.blk.setField f).setCauses cs).setReport u ∧
    configured s.ctx (replied true a selector r item s.blk) a = true ∧
    (∀ j : Fin 24, j ≠ a → f.module[j] = s.blk.field.module[j]) ∧
    f.module[a].online = s.blk.field.module[a].answered.online := by
  obtain ⟨f, cs, u, rest⟩ := replied_rest live true a selector r item
  have field := replied_field live true a selector r item
  refine ⟨f, cs, u, rest, ?_, ?_⟩
  · rw [rest]
    exact present
  · rw [rest] at field
    have field' : f = _ := field
    rw [field']
    refine ⟨fun j other => set_other _ _ other, ?_⟩
    simp [repliedModule, repliedEntry, Module.withItem]

/-- A configured screen's reply is its station's, registration first and then the lift report (log 15). -/
theorem ReplyTaken.screen {position : LiftPosition} {error : Int} {fault : Bool}
    (taken : ReplyTaken s a selector (.screen position error fault) item t) {k : Fin 16} (serves : moduleScreen a = some k) :
    ∃ b : Blocks, b.stations = s.blk.stations ∧ b.track = s.blk.track ∧ b.cache = s.blk.cache ∧
      (∀ j : Fin 24, j ≠ a → b.field.module[j] = s.blk.field.module[j]) ∧
      b.field.module[a].online = s.blk.field.module[a].answered.online ∧
      t.blk.stations = (liftReport s.ctx k position (registration k error b)).stations ∧
      t.blk.track = (liftReport s.ctx k position (registration k error b)).track := by
  obtain ⟨f, cs, u, rest, present', others, online⟩ := replied_configured live present
  rw [taken.stations, taken.track, goodReply_eq, if_pos present, handReply_screen serves present', rest]
  exact ⟨((s.blk.setField f).setCauses cs).setReport u, rfl, rfl, rfl, others, online, rfl, rfl⟩

/-- A configured zone's reply gives the zone its temperature. -/
theorem ReplyTaken.zone {temp : Nat} {fault : Bool} (taken : ReplyTaken s a selector (.zone temp fault) item t) {z : Fin 8}
    (serves : moduleZone a = some z) : t.blk.oven.zone[z] = { s.blk.oven.zone[z] with temp := temp } ∧
      ∀ j : Fin 8, j ≠ z → t.blk.oven.zone[j] = s.blk.oven.zone[j] := by
  obtain ⟨f, cs, u, rest, present', -⟩ := replied_configured live present
  rw [taken.oven, goodReply_eq, if_pos present, handReply_zone serves present', rest]
  exact ⟨modZone_same .., fun j other => modZone_other _ other _⟩

end Taken

/-- Settles O49: a frame while the line is driven, a late frame, the reply of an exchange, and its checks. -/
theorem framesAreJudgedOrLate : Obligations.FramesAreJudgedOrLate := by
  refine ⟨fun s bytes framing elapsed live => ⟨exec_frameClosed_driven, fun released waiting =>
    ⟨_, exec_frameClosed_late live released waiting, follows_setField (g := fun _ b => lateFrame b) rfl⟩,
    fun a sel released receiving => ⟨_, exec_frameClosed_reply live released receiving, ?_⟩⟩,
    fun address screen selector framing bytes => ⟨?_, ?_, ?_⟩⟩
  · have follows := blockStep_follows (fun x b => judgeFrame x ⟨a, .receiving, sel⟩ bytes framing elapsed b) s
    obtain ⟨⟨_, motion, mem, _, _, _, _, _, _, _, field, _⟩, _⟩ := id follows
    obtain ⟨quiet, late⟩ := judgeFrame_next live s.ctx a .receiving sel bytes framing elapsed
    refine ⟨mem, motion, by rw [field]; exact quiet, by rw [field]; exact late, ?_⟩
    cases judged : judgeReply (a.val + 1) (decide (a.val < 16)) sel framing bytes with
    | ok r =>
      rw [judgeFrame_good judged] at follows
      have taken := replyTaken_of_follows live follows
      refine ⟨taken.own, taken.other, taken.missCounts, taken.moduleFault live, taken.pasteLow live,
        taken.unconfigured live, fun k position error fault serves reply present => ?_,
        fun z temp fault serves reply present => ?_⟩
      · rw [reply] at taken
        exact taken.screen live present serves
      · rw [reply] at taken
        exact taken.zone live present serves
    | error reason =>
      rw [judgeFrame_miss judged] at follows
      exact (missTaken_of_follows (f := s.blk.field) rfl rfl follows).1
  · rintro rfl
    exact judgeReply_framing bytes
  · rintro rfl other
    exact judgeReply_length other
  · rintro b1 b2 b3 b4 b5 b6 b7 rfl rfl
    refine ⟨judgeReply_crc, judgeReply_address, fun crc own => ⟨fun other => ?_, fun named isScreen => ?_,
      fun named isZone => ?_⟩⟩
    · rw [judgeReply_contents crc own, replyContents_selector other]
      rfl
    · rw [isScreen, judgeReply_contents crc own, replyContents_screen named]
      refine ⟨fun bad => ?_, fun position code => ?_⟩
      · rw [bad]
        rfl
      · rw [show b2.toNat % 4 = position.code by rw [code]; cases position <;> rfl, liftPosition_ofCode_code]
        rfl
    · rw [isZone, judgeReply_contents crc own, replyContents_zone named]
      refine ⟨fun hot => ?_, fun within => ?_⟩
      · rw [if_neg (by omega)]
        rfl
      · rw [if_pos within]
        rfl

end Sys2Proof.Machine
end

section
/-! A host access that waits for its grant at the end of a step: it waits still, or is carried from its word 0, which is
judged (R163, R172, R175, R182). -/

namespace Sys2Proof.Machine

/-! ### What the drop test reads -/

/-- The drop test reads the part state, the take index and the posted count alone (R174, R175). -/
theorem judgeWord_congr {b c : Blocks} (live : c.live = b.live) (take : c.plan.takeIndex = b.plan.takeIndex)
    (posted : c.plan.posted = b.plan.posted) (x : Ctx) (a : HostAccess) (i : Nat) :
    judgeWord x c a i = judgeWord x b a i := by
  have window : windowOf x c = windowOf x b := by
    funext k
    rw [windowOf, windowOf, live]
  have protection : planProtected x c.plan = planProtected x b.plan := by
    funext k
    rw [planProtected, planProtected, take, posted]
  unfold judgeWord
  rw [window, protection]

/-- The end of a step keeps what the drop test reads. -/
theorem judgeWord_settle (x : Ctx) (w : Weigh) (b : Blocks) (a : HostAccess) (i : Nat) :
    judgeWord x (settle x w b) a i = judgeWord x b a i := by
  obtain ⟨posted, _, take⟩ := ring_of_planFollows (settle_planFollows x w b)
  exact judgeWord_congr (settle_live x w b) take posted x a i

/-! ### A grant decision and the access that waits -/

/-- The access waits for its grant, or has it: its word 0 is carried, with the judgement of the state. -/
def AwaitsGrant (x : Ctx) (a : HostAccess) (b : Blocks) : Prop :=
  b.path.host = .portWait a ∨ b.path.host = .carrying a 0 (judgeWord x b a 0)

theorem AwaitsGrant.waitLine {x : Ctx} {a : HostAccess} {b : Blocks} (h : AwaitsGrant x a b) : b.waitLine = true := by
  rcases h with waits | carried
  · simp [Blocks.waitLine, waits]
  · simp [Blocks.waitLine, carried]

theorem AwaitsGrant.carried {x : Ctx} {a : HostAccess} {b : Blocks} (h : AwaitsGrant x a b) :
    b.path.host = .portWait a ∨ ∃ j, b.path.host = .carrying a 0 j :=
  h.imp_right fun carrying => ⟨_, carrying⟩

section Waiting
variable {a : HostAccess} {b : Blocks} (waits : b.path.host = .portWait a)
include waits

theorem grantHost_awaits (x : Ctx) (n : Nat) : AwaitsGrant x a (grantHost x b n) := by
  unfold grantHost
  rw [waits]
  exact .inr rfl

theorem grantInternal_awaits (x : Ctx) (r : Requester) : AwaitsGrant x a (grantInternal b r) := by
  unfold grantInternal
  split <;> exact .inl waits

theorem grantAmong_awaits (x : Ctx) (q : Requests) : AwaitsGrant x a (grantAmong x b q) := by
  unfold grantAmong
  split
  next => exact grantHost_awaits waits x _
  next =>
    split
    · exact grantHost_awaits waits x _
    · exact grantInternal_awaits waits x _
  next => exact grantInternal_awaits waits x _
  next => exact .inl waits

theorem arbitrate_awaits (x : Ctx) (w : Weigh) : AwaitsGrant x a (arbitrate x w b) := by
  unfold arbitrate
  split
  next => exact grantAmong_awaits waits x _
  next => exact .inl waits

end Waiting

/-- The capture of a snapshot keeps the host access, and what its judgement reads. -/
theorem AwaitsGrant.captureAtGrant {x : Ctx} {a : HostAccess} {b : Blocks} (h : AwaitsGrant x a b) :
    AwaitsGrant x a (Machine.captureAtGrant x b) := by
  rw [captureAtGrant_eq]
  exact h

theorem settle_awaits {a : HostAccess} {b : Blocks} (waits : b.path.host = .portWait a) (x : Ctx) (w : Weigh) :
    AwaitsGrant x a (settle x w b) := by
  obtain ⟨slots, requested⟩ := pumps_path x b
  have waits' : (pumpReport x (pumpPlan x (pumpCache x (pumpRestart x b)))).path.host = .portWait a := by
    rw [requested]
    exact waits
  exact (arbitrate_awaits waits' x w).captureAtGrant

/-- An access that waits before the end of a step. -/
theorem decided_awaits {a : HostAccess} {s : State} (waits : s.blk.path.host = .portWait a) (pre : Requests)
    (decision : Decision) : AwaitsGrant s.ctx a (s.decided pre decision).blk :=
  settle_awaits waits s.ctx _

theorem blockStep_awaits {f : Ctx → Blocks → Blocks} {a : HostAccess} {s : State}
    (waits : (f s.ctx s.blk).path.host = .portWait a) : AwaitsGrant s.ctx a (blockStep f s).blk :=
  decided_awaits (s := s.setBlk (f s.ctx s.blk)) waits ..

theorem completeAccess_awaits {s : State} {x : Access} (carries : CarriesAccess s x) {kinds : List AccessKind}
    (kind : x.kind ∈ kinds) {decision : Decision} {f : Ctx → List Word → Blocks → Blocks} {a : HostAccess}
    (waits : (f s.ctx (readBy s x) (freePort s.blk)).path.host = .portWait a) :
    AwaitsGrant s.ctx a (completeAccess kinds decision (onBlocks f) s).blk := by
  rw [completeAccess_eq carries kind]
  exact decided_awaits (s := (s.setMem (s.mem.carry x)).setBlk (f s.ctx (readBy s x) (freePort s.blk))) waits ..

/-! ### The stall ends (R163) -/

/-- A stalled access whose stall ends waits for its grant. -/
theorem endStall_stalled {b : Blocks} {a : HostAccess} (stalled : b.path.host = .stalled a) :
    b.modPath endStall = b.setPath { b.path with host := .portWait a } := by
  rw [Blocks.modPath, endStall, stalled]

end Sys2Proof.Machine
end

section
/-! The outcome ring: the record write, and a stalled read that it releases (R160, R161, R163). -/

namespace Sys2Proof.Machine

/-- A burst that is not the last leaves the rest of the record (R161). -/
theorem recordBurstDone_eq {b : Blocks} {u : Burst} {rest : List Burst} (writing : b.report.recordWrite = some (u :: rest)) :
    recordBurstDone b = b.setReport { b.report with recordWrite := some rest } := by
  dsimp only [recordBurstDone, Blocks.modReport]
  rw [writing]
  rfl

/-- The report unit as the word 0 write of a record completes: the slot full, the record out of the queue, the write
index at the next slot, and the record counted by its kind (R160, R161). -/
def Report.recorded (slots : Nat) (rec : OutRecord) (rest : List OutRecord) (r : Report) : Report :=
  { r with
    full := r.full.set r.writeIndex true
    queue := rest
    recordWrite := none
    writeIndex := if r.writeIndex + 1 < slots then r.writeIndex + 1 else 0
    segmentsWritten := if rec.segment then r.segmentsWritten + 1 else r.segmentsWritten
    rejectionsWritten := if rec.segment then r.rejectionsWritten else r.rejectionsWritten + 1 }

theorem countWritten_eq (segment : Bool) (r : Report) : countWritten segment r = { r with
    segmentsWritten := if segment then r.segmentsWritten + 1 else r.segmentsWritten
    rejectionsWritten := if segment then r.rejectionsWritten else r.rejectionsWritten + 1 } := by
  cases segment <;> rfl

/-- A read stalled on the slot is looked for once the record is in it. -/
theorem recordDone_eq {b : Blocks} {rec : OutRecord} {rest : List OutRecord} (queue : b.report.queue = rec :: rest)
    (x : Ctx) : recordDone x b = fillStall (b.setReport (b.report.recorded x.cfg.outcomeSlots rec rest)) := by
  rw [recordDone, queue]
  dsimp only [Blocks.modReport]
  rw [countWritten_eq]
  rfl

theorem recordDone_unstalled {b : Blocks} {rec : OutRecord} {rest : List OutRecord} (queue : b.report.queue = rec :: rest)
    (unstalled : ∀ a, b.path.host ≠ .stalled a) (x : Ctx) :
    recordDone x b = b.setReport (b.report.recorded x.cfg.outcomeSlots rec rest) := by
  rw [recordDone_eq queue]
  unfold fillStall
  split
  next a stalled => exact absurd stalled (unstalled a)
  all_goals rfl

/-- The stalled read is released: it waits for its grant, and the stall timer is stopped (R163). -/
theorem recordDone_stalled {b : Blocks} {rec : OutRecord} {rest : List OutRecord} (queue : b.report.queue = rec :: rest)
    {a : HostAccess} (stalled : b.path.host = .stalled a) (x : Ctx) :
    recordDone x b = (b.setReport { b.report.recorded x.cfg.outcomeSlots rec rest with
      stallTimer := none, stallsFilled := inc16 b.report.stallsFilled }).setPath
      { b.path with host := .portWait a } := by
  rw [recordDone_eq queue, fillStall, Blocks.setReport_path, stalled]
  exact endStall_stalled (b := b.setReport _) stalled

/-- Settles O50: a burst before word 0, and the word 0 write with and without a read stalled on the slot. -/
theorem recordWritesFillTheRing : Obligations.RecordWritesFillTheRing := by
  refine ⟨fun s a decision u u' rest carries kind writing => ⟨_, rfl, ?_⟩,
    fun s a decision rec rest carries kind queue => ⟨fun unstalled => ⟨_, rfl, ?_⟩, fun y stalled => ⟨_, rfl, ?_, ?_⟩⟩⟩
  · exact completeAccess_leaves carries (by simp [kind]) ⟨(freePort s.blk).path,
      recordBurstDone_eq (b := freePort s.blk) writing, rfl, rfl⟩
  · exact completeAccess_leaves carries (by simp [kind])
      ⟨(freePort s.blk).path, recordDone_unstalled (b := freePort s.blk) queue unstalled s.ctx, rfl, rfl⟩
  · exact completeAccess_leaves carries (by simp [kind])
      ⟨{ (freePort s.blk).path with host := .portWait y },
        recordDone_stalled (b := freePort s.blk) queue stalled s.ctx, rfl, rfl⟩
  · refine (completeAccess_awaits carries (by simp [kind]) ?_).carried
    rw [recordDone_stalled (b := freePort s.blk) queue stalled]
    rfl

end Sys2Proof.Machine
end

section
/-! Slots freed, pages selected, and the rewrites of the status block owed and written (R162, R165, R166, R196). -/

namespace Sys2Proof.Machine

/-! ### The words of the outcome ring and of the status block (R162, R165, R196) -/

theorem classOf_slotFree {b : Blocks} {v : WriteWord} {k : Nat} (full : v.enables = 0xF#4) (zero : v.value = 0)
    (isFull : b.report.full.getD k false = true) (read : ∀ n id, b.restart.mapNext = some (n, id) → k < n) :
    classOf b v (.outcome, 32 * k) = .slotFree := by
  have slot : 32 * k / 32 = k := Nat.mul_div_cancel_left k (by decide)
  have frees : freesSlot b (32 * k) v = true := by
    unfold freesSlot
    rw [slot, Report.isFull, isFull]
    cases map : b.restart.mapNext with
    | none => simp [full, zero]
    | some m => simp [full, zero, read m.1 m.2 map]
  exact if_pos frees

theorem classOf_pageSelect {v : WriteWord} (full : v.enables = 0xF#4) (page : v.value.toNat ≤ 12) (b : Blocks) :
    classOf b v (.status, 57) = .pageSelect := by
  rw [classOf, if_neg (fun ⟨other, _⟩ => absurd other (by decide)), if_pos ⟨rfl, full, page⟩]

/-- The slot that a word of the outcome ring frees is its own. -/
theorem slotFreeEffect_carries {s : State} {w : CarriedWord} {v : WriteWord} {k : Nat}
    (carries : CarriesWrite s w v .outcome (32 * k)) : slotFreeEffect s.ctx w (wordBlocks s w) =
      (wordBlocks s w).setReport { s.blk.report with full := s.blk.report.full.set k false } := by
  obtain ⟨_, _, _, _, place⟩ := carries
  have place' : w.place s.ctx (wordBlocks s w) = (.outcome, 32 * k) := place
  rw [slotFreeEffect, place', Nat.mul_div_cancel_left k (by decide)]
  rfl

theorem pageEffect_carries {s : State} {w : CarriedWord} {v : WriteWord} {off : Nat}
    (carries : CarriesWrite s w v .status off) : pageEffect s.ctx w (wordBlocks s w) =
      (wordBlocks s w).setReport { s.blk.report with page := v.value.toNat, rewriteOwed := true } := by
  obtain ⟨_, _, word, _⟩ := carries
  rw [pageEffect, word]
  rfl

/-- A word whose effect is on the report unit alone. -/
theorem setReport_leaves {s : State} {w : CarriedWord} {v : WriteWord} {win : Window} {off : Nat}
    (carries : CarriesWrite s w v win off) {decision : Decision} {effect : Ctx → CarriedWord → Blocks → Blocks} {r : Report}
    (work : effect s.ctx w (wordBlocks s w) = (wordBlocks s w).setReport r) :
    WordLeaves s w v (s.blk.setReport r) (completeWord (classOf s.blk v (win, off)) decision effect s) := by
  obtain ⟨q, eq, kept⟩ := wordBlocks_butPath carries
  exact completeWord_leaves carries ⟨q, by rw [work, eq]; rfl, kept⟩

/-! ### The rewrites of the status block (R166) -/

theorem restOfRewrite_cons (u : Burst) (rest : List Burst) :
    restOfRewrite (some (u :: rest)) = if rest = [] then none else some rest := by
  cases rest <;> rfl

theorem exec_statusTimerExpiry {s : State} {n : Nat} (running : s.blk.report.statusTimer = some n) :
    exec .statusTimerExpiry s = .next (blockStep (fun x b => b.modReport fun r =>
      { r with statusTimer := some x.cfg.statusInterval, rewriteOwed := true }) s) := by
  simp only [exec, execStatusTimerExpiry, running]

/-- Settles O51: the classes of the two words, and the work of each of the four commands on the report unit. -/
theorem slotsAreFreedAndRewritesOwed : Obligations.SlotsAreFreedAndRewritesOwed := by
  refine ⟨fun s w v k decision carries full zero isFull read => ⟨_, rfl, ?_⟩,
    fun s w v decision carries full page => ⟨_, rfl, ?_⟩,
    fun s n running => ⟨_, exec_statusTimerExpiry running, blockStep_follows _ s⟩,
    fun s a decision u rest carries kind writing => ⟨_, rfl, ?_⟩⟩
  · have leaves := setReport_leaves carries (decision := decision) (slotFreeEffect_carries carries)
    rwa [classOf_slotFree full zero isFull read] at leaves
  · have leaves := setReport_leaves carries (decision := decision) (pageEffect_carries carries)
    rwa [classOf_pageSelect full page] at leaves
  · refine completeAccess_leaves carries (by simp [kind]) ⟨(freePort s.blk).path, ?_, rfl, rfl⟩
    rw [← restOfRewrite_cons u, ← writing]
    rfl

end Sys2Proof.Machine
end

section
/-! The host port takes an access: the freeze and the stall are judged, and the end of the step may grant it (R163, R167,
R171, R172). -/

namespace Sys2Proof.Machine

/-! ### The words of an access (R167, R171) -/

theorem count_pos_of_wf {a : HostAccess} (wf : a.wf = true) : 0 < a.count := by
  rw [HostAccess.wf, Bool.and_eq_true_iff, decide_eq_true_iff] at wf
  exact wf.1

theorem accessWindows_head (x : Ctx) (b : Blocks) {a : HostAccess} (present : 0 < a.count) :
    (accessWindows x b a).head? = some (windowOf x b (hostWordAt a 0)) := by
  simp [accessWindows, List.head?_range, present.ne']

/-- A read whose first word is word 0 of the status block (R167). -/
theorem startsFreeze_iff (x : Ctx) (b : Blocks) {a : HostAccess} (present : 0 < a.count) :
    startsFreeze (accessWindows x b a) a = true ↔
      accessReads a = true ∧ windowOf x b (hostWordAt a 0) = (.status, 0) := by
  rw [startsFreeze, accessWindows_head x b present]
  simp

/-- A read that includes word 63 of the status block, or an access with a word outside it (R167; log 58). -/
theorem endsFreeze_iff (x : Ctx) (b : Blocks) (a : HostAccess) : endsFreeze (accessWindows x b a) a = true ↔
    (accessReads a = true ∧ ∃ i < a.count, windowOf x b (hostWordAt a i) = (.status, 63)) ∨
      ∃ i < a.count, (windowOf x b (hostWordAt a i)).1 ≠ .status := by
  simp [endsFreeze, accessWindows]

/-! ### The freeze (R167) -/

/-- The withdrawal of a status burst changes the slots and the host run count alone (R182, R184). -/
theorem withdrawStatus_eq (p : Path) : ∃ slots run, withdrawStatus p = { p with slots := slots, hostRun := run } := by
  obtain ⟨slots, run, eq, _⟩ := withdraw_eq p .report
  unfold withdrawStatus
  split
  · split
    · exact ⟨slots, run, eq⟩
    · exact ⟨_, _, rfl⟩
  · exact ⟨_, _, rfl⟩

/-- What the judgement of the freeze may leave: a rewrite abandoned and owed again, the freeze, the slots and the host run
count (R167, R182, R184). -/
def FreezeWork (b c : Blocks) : Prop :=
  ∃ rewrite owed freeze slots run, c = (b.setReport { b.report with rewrite := rewrite, rewriteOwed := owed }).setPath
    { b.path with freeze := freeze, slots := slots, hostRun := run }

theorem beginFreeze_work (b : Blocks) : FreezeWork b (beginFreeze b) := by
  unfold beginFreeze
  split
  · exact ⟨_, _, _, _, _, rfl⟩
  · dsimp only
    split
    · obtain ⟨slots, run, withdrawn⟩ := withdrawStatus_eq b.path
      refine ⟨none, true, true, slots, run, ?_⟩
      simp only [Blocks.modPath, Blocks.modReport, Blocks.setReport_path, withdrawn]
      rfl
    · exact ⟨_, _, _, _, _, rfl⟩

theorem judgeFreeze_work (x : Ctx) (a : HostAccess) (b : Blocks) : FreezeWork b (judgeFreeze x a b) := by
  unfold judgeFreeze
  dsimp only
  split
  · exact beginFreeze_work b
  · split <;> exact ⟨_, _, _, _, _, rfl⟩

theorem beginFreeze_freeze (b : Blocks) : (beginFreeze b).path.freeze = true := by
  unfold beginFreeze
  split
  next frozen => exact frozen
  next => rfl

theorem judgeFreeze_freeze (x : Ctx) (a : HostAccess) (b : Blocks) : (judgeFreeze x a b).path.freeze =
    if startsFreeze (accessWindows x b a) a then true
    else if endsFreeze (accessWindows x b a) a then false else b.path.freeze := by
  unfold judgeFreeze
  dsimp only
  split
  · exact beginFreeze_freeze b
  · split <;> rfl

/-- A rewrite in progress is abandoned and owed again, but for one whose last burst is being carried (R167; log 33). -/
theorem beginFreeze_abandons {b : Blocks} (free : b.path.freeze = false) (writing : b.report.rewrite.isSome = true)
    (early : lastBurstCarried b = false) :
    (beginFreeze b).report = { b.report with rewrite := none, rewriteOwed := true } := by
  simp [beginFreeze, free, writing, early]

/-- Under a freeze no rewrite begins (R166). -/
theorem startRewrite_frozen {x : Ctx} {b : Blocks} (frozen : b.path.freeze = true) : startRewrite x b = b :=
  if_neg fun ⟨_, _, _, free⟩ => free frozen

@[simp] theorem requestIfFree_freeze (r : Requester) (a : Option Access) (b : Blocks) :
    (requestIfFree r a b).path.freeze = b.path.freeze := by
  rw [requestIfFree_path]
  rfl

theorem settle_frozen {b : Blocks} (frozen : b.path.freeze = true) (x : Ctx) (w : Weigh) :
    (settle x w b).report.rewrite = b.report.rewrite ∧ (settle x w b).report.rewriteOwed = b.report.rewriteOwed := by
  rw [settle_report, startRewrite_frozen (by simp [pumpPlan, pumpCache, pumpRestart, frozen])]
  obtain ⟨_, _, record, _⟩ := startRecord_report x.cfg (pumpPlan x (pumpCache x (pumpRestart x b)))
  rw [record]
  simp [pumpPlan, pumpCache, pumpRestart]

/-! ### The stall judgement (R163) -/

/-- A read's first address is its start address. -/
theorem hostWordAt_read_zero (addr : BitVec 22) (n : Nat) : hostWordAt (.read addr n) 0 = addr.toNat :=
  Nat.mod_eq_of_lt addr.isLt

theorem readsSlot_outcome {x : Ctx} {b : Blocks} {addr : BitVec 22} {n slot : Nat} (present : 0 < n)
    (place : windowOf x b addr.toNat = (.outcome, 32 * slot)) :
    readsSlot (accessWindows x b (.read addr n)) (.read addr n) = some slot := by
  rw [readsSlot, accessWindows_head x b (a := .read addr n) present, hostWordAt_read_zero, place]
  simp [accessReads]

/-- With no outcome map being rebuilt a slot counts as full where the map has it full (R163, R196). -/
theorem countsFull_mapped {b : Blocks} (mapped : b.restart.mapNext = none) (k : Nat) :
    countsFull b k = b.report.full.getD k false := by
  rw [countsFull, mapped]
  exact Bool.or_false _

theorem stalls_iff {x : Ctx} {b : Blocks} {addr : BitVec 22} {n slot : Nat} (present : 0 < n)
    (place : windowOf x b addr.toNat = (.outcome, 32 * slot)) (mapped : b.restart.mapNext = none) :
    stalls x b (.read addr n) = true ↔ b.live = true ∧ x.cfg.stallLimit ≠ 0 ∧ slot = b.report.writeIndex ∧
      b.report.full.getD slot false = false ∧ b.report.queue = [] := by
  rw [stalls, readsSlot_outcome present place]
  dsimp only
  rw [countsFull_mapped mapped]
  simp only [Bool.and_eq_true, decide_eq_true_eq, Bool.not_eq_true']
  tauto

/-- The judgement of the freeze changes nothing that the stall judgement reads. -/
theorem FreezeWork.stalls {b c : Blocks} (h : FreezeWork b c) (x : Ctx) (a : HostAccess) :
    Machine.stalls x c a = Machine.stalls x b a := by
  obtain ⟨_, _, _, _, _, rfl⟩ := h
  rfl

/-! ### The taking of an access (R172) -/

/-- What an access taken leaves before the end of the step, `b` being the blocks before. -/
structure AccessTaken (x : Ctx) (a : HostAccess) (b c : Blocks) : Prop where
  track : c.track = b.track
  causes : c.causes = b.causes
  stalled : stalls x b a = true → c.path.host = .stalled a ∧ c.report.stallTimer = some x.cfg.stallLimit ∧
    c.report.stallsBegun = inc16 b.report.stallsBegun
  waits : stalls x b a = false → c.path.host = .portWait a
  freeze : c.path.freeze = (judgeFreeze x a b).path.freeze
  rewrite : c.report.rewrite = (judgeFreeze x a b).report.rewrite
  rewriteOwed : c.report.rewriteOwed = (judgeFreeze x a b).report.rewriteOwed

theorem takeAccess_taken (x : Ctx) (a : HostAccess) (b : Blocks) : AccessTaken x a b (takeAccess x a b) := by
  have work := judgeFreeze_work x a b
  have judged := work.stalls x a
  obtain ⟨_, _, _, _, _, eq⟩ := work
  have track : (judgeFreeze x a b).track = b.track := by rw [eq]; rfl
  have causes : (judgeFreeze x a b).causes = b.causes := by rw [eq]; rfl
  have begun : (judgeFreeze x a b).report.stallsBegun = b.report.stallsBegun := by rw [eq]; rfl
  unfold takeAccess holdAccess
  rw [judged]
  by_cases stalling : stalls x b a = true
  · rw [if_pos stalling]
    exact ⟨track, causes, fun _ => ⟨rfl, rfl, congrArg inc16 begun⟩, fun free => absurd stalling (by rw [free]; decide),
      rfl, rfl, rfl⟩
  · rw [if_neg stalling]
    exact ⟨track, causes, fun held => absurd held stalling, fun _ => rfl, rfl, rfl, rfl⟩

/-! ### The commands (R163, R171, R172) -/

theorem exec_hostAccessPresented_fault {a : HostAccess} (other : a.count = 0 ∨ 8 < a.count) (s : State) :
    exec (.hostAccessPresented a) s = .fault .notAnAccess := by
  have bad : a.wf = false := by
    rw [HostAccess.wf, Bool.and_eq_false_iff, decide_eq_false_iff_not, decide_eq_false_iff_not]
    omega
  simp only [exec, execHostAccessPresented, bad]
  rfl

theorem exec_hostAccessPresented_taken {a : HostAccess} {s : State} (wf : a.wf = true) (empty : s.blk.path.host = .empty) :
    exec (.hostAccessPresented a) s = .next (blockStep (fun x b => takeAccess x a b) s) := by
  simp only [exec, execHostAccessPresented, wf, empty]
  rfl

/-- A port that is not empty takes no access (log 3). -/
theorem exec_hostAccessPresented_busy {a : HostAccess} {s : State} (wf : a.wf = true) (busy : s.blk.path.host ≠ .empty) :
    exec (.hostAccessPresented a) s = .next s := by
  simp only [exec, execHostAccessPresented, wf, if_neg busy]
  rfl

/-- The stall timer's expiry ends the stall (R163). -/
def stallExpired (b : Blocks) : Blocks :=
  (b.modReport fun r => { r with stallTimer := none, stallsExpired := inc16 r.stallsExpired }).modPath endStall

theorem stallExpired_stalled {b : Blocks} {a : HostAccess} (stalled : b.path.host = .stalled a) : stallExpired b =
    (b.setReport { b.report with stallTimer := none, stallsExpired := inc16 b.report.stallsExpired }).setPath
      { b.path with host := .portWait a } :=
  endStall_stalled (b := b.modReport _) stalled

theorem exec_stallTimerExpiry {s : State} {n : Nat} (running : s.blk.report.stallTimer = some n) :
    exec .stallTimerExpiry s = .next (blockStep (fun _ b => stallExpired b) s) := by
  simp only [exec, execStallTimerExpiry, running]
  rfl

/-- The part after an access is presented to an empty port: the access taken, and the end of the step. -/
structure PortTakes (s : State) (a : HostAccess) (t : State) : Prop where
  cfg : t.cfg = s.cfg
  motion : t.motion = s.motion
  mem : t.mem = s.mem
  track : t.blk.track = s.blk.track
  causes : t.blk.causes = s.blk.causes
  stalled : stalls s.ctx s.blk a = true → t.blk.path.host = .stalled a ∧ t.blk.report.stallTimer = some s.cfg.stallLimit ∧
    t.blk.report.stallsBegun = inc16 s.blk.report.stallsBegun
  waits : stalls s.ctx s.blk a = false → AwaitsGrant t.ctx a t.blk
  freeze : t.blk.path.freeze = (judgeFreeze s.ctx a s.blk).path.freeze
  frozen : t.blk.path.freeze = true → t.blk.report.rewrite = (judgeFreeze s.ctx a s.blk).report.rewrite ∧
    t.blk.report.rewriteOwed = (judgeFreeze s.ctx a s.blk).report.rewriteOwed

theorem takeAccess_portTakes (s : State) (a : HostAccess) :
    PortTakes s a (blockStep (fun x b => takeAccess x a b) s) := by
  have taken := takeAccess_taken s.ctx a s.blk
  have follows := blockStep_follows (fun x b => takeAccess x a b) s
  have frozen := settle_frozen (b := takeAccess s.ctx a s.blk)
  have granted := blockStep_awaits (f := fun x b => takeAccess x a b) (a := a) (s := s)
  obtain ⟨⟨cfg, motion, mem, _, causes, track, _, _, _, _, _, _, ⟨report, _⟩, _⟩, freeze, _, _, host⟩ := follows
  have ctx : (blockStep (fun x b => takeAccess x a b) s).ctx = s.ctx := by rw [State.ctx, cfg, motion]; rfl
  refine ⟨cfg, motion, mem, track.trans taken.track, causes.trans taken.causes, fun stalling => ?_, fun free => ?_,
    freeze.trans taken.freeze, fun inForce => ?_⟩
  · obtain ⟨held, timer, begun⟩ := taken.stalled stalling
    refine ⟨(host fun y waits => ?_).1.trans held, ?_, ?_⟩
    · cases held.symm.trans waits
    · rw [report]; exact timer
    · rw [report]; exact begun
  · rw [ctx]
    exact granted (taken.waits free)
  · obtain ⟨rewrite, owed⟩ := frozen (freeze.symm.trans inForce) s.ctx _
    exact ⟨rewrite.trans taken.rewrite, owed.trans taken.rewriteOwed⟩

theorem PortTakes.waitLine {s : State} {a : HostAccess} {t : State} (h : PortTakes s a t) : t.blk.waitLine = true := by
  cases stalling : stalls s.ctx s.blk a with
  | true => simp [Blocks.waitLine, (h.stalled stalling).1]
  | false => exact (h.waits stalling).waitLine

/-- Settles O52: the fault, the taking with its judgements of the freeze and of the stall, and the stall timer. -/
theorem hostPortTakesAnAccess : Obligations.HostPortTakesAnAccess := by
  refine ⟨fun a s other => exec_hostAccessPresented_fault other s,
    fun s a wf => ⟨fun empty => ⟨_, exec_hostAccessPresented_taken wf empty, ?_⟩, exec_hostAccessPresented_busy wf⟩,
    fun x b addr n slot => stalls_iff, fun s n y running stalled => ⟨_, exec_stallTimerExpiry running, ?_, ?_⟩⟩
  · have takes := takeAccess_portTakes s a
    have starts := startsFreeze_iff s.ctx s.blk (count_pos_of_wf wf)
    have ends := endsFreeze_iff s.ctx s.blk a
    have freeze := takes.freeze.trans (judgeFreeze_freeze s.ctx a s.blk)
    refine ⟨takes.mem, takes.cfg, takes.motion, takes.track, takes.causes, takes.waitLine, takes.stalled, takes.waits,
      fun begins => ?_, fun other finishes => ?_, fun other stays => ?_, fun begins free writing early => ?_⟩
    · rw [freeze, if_pos (starts.mpr begins)]
    · rw [freeze, if_neg (mt starts.mp other), if_pos (ends.mpr finishes)]
    · rw [freeze, if_neg (mt starts.mp other), if_neg (mt ends.mp stays)]
    · obtain ⟨rewrite, owed⟩ := takes.frozen (by rw [freeze, if_pos (starts.mpr begins)])
      have judged : judgeFreeze s.ctx a s.blk = beginFreeze s.blk := if_pos (starts.mpr begins)
      rw [rewrite, owed, judged, beginFreeze_abandons free writing early]
      exact ⟨rfl, rfl⟩
  · have follows := (blockStep_follows (fun _ b => stallExpired b) s).1
    rw [stallExpired_stalled stalled] at follows
    exact followsButPath_setPath follows
  · refine (blockStep_awaits (a := y) ?_).carried
    rw [stallExpired_stalled stalled]
    rfl

end Sys2Proof.Machine
end

section
/-! Work that leaves the path unit as it is: the report unit's, the setting cache's, the track unit's and the plan
reader's. A fetch withdrawn or restarted changes its request slots and its host run count (R182, R184). -/

namespace Sys2Proof.Machine

/-- A path unit without what a withdrawal of a request changes: its request slots and its host run count (R182, R184). -/
def Path.core (p : Path) : Path := { p with slots := .replicate 4 none, hostRun := 0 }

theorem ite_path {p : Prop} [Decidable p] {a b c : Blocks} (hb : b.path = a.path) (hc : c.path = a.path) :
    (if p then b else c).path = a.path := by
  split
  · exact hb
  · exact hc

theorem ite_core {p : Prop} [Decidable p] {a b c : Blocks} (hb : b.path.core = a.path.core)
    (hc : c.path.core = a.path.core) : (if p then b else c).path.core = a.path.core := by
  split
  · exact hb
  · exact hc

theorem foldl_path {ι : Type} {f : Blocks → ι → Blocks} (hf : ∀ b i, (f b i).path = b.path) (l : List ι) (b : Blocks) :
    (l.foldl f b).path = b.path := by
  induction l generalizing b with
  | nil => rfl
  | cons i l ih => rw [List.foldl_cons, ih, hf]

section Untouched
variable (x : Ctx) (b : Blocks)

@[simp] theorem raise_path (k : CauseKind) (source : Nat) : (raise k source b).path = b.path := raiseAt_path ..

@[simp] theorem evaluateWants_path : (evaluateWants x b).path = b.path := (evaluateWants_web (.refl b) x).path

/-! ### The report unit -/

@[simp] theorem queueRecord_path (r : OutRecord) : (queueRecord r b).path = b.path :=
  ite_path (ite_path (raise_path ..) rfl) (raise_path ..)

@[simp] theorem reportRetired_path (g : Segment) : (reportRetired g b).path = b.path := queueRecord_path ..

@[simp] theorem rejectOrder_path (id : BitVec 16) (slot : Nat) (reason : RejectReason) :
    (rejectOrder id slot reason b).path = b.path := by
  rw [rejectOrder, raise_path, Blocks.modPlan_path, reportRejected, queueRecord_path, Blocks.modReport_path]

/-! ### The setting cache -/

@[simp] theorem lookupStaged_path (n : Nat) : (lookupStaged n b).path = b.path := by
  unfold lookupStaged
  split
  · exact raise_path ..
  · rfl

@[simp] theorem retryLookup_path : (retryLookup b).path = b.path := by
  unfold retryLookup
  split
  · rfl
  · split <;> rfl

@[simp] theorem releaseRef_path (r : Option SettingRef) : (releaseRef r b).path = b.path := by
  rw [releaseRef_eq]
  rfl

@[simp] theorem claimOwed_path (o : Option ContOwed) : (claimOwed o b).path = b.path := by
  rw [claimOwed_eq]
  rfl

@[simp] theorem supersedeUnmounted_path (gone : Fin 16 → Bool) : (supersedeUnmounted gone b).path = b.path := by
  rw [supersedeUnmounted_eq]
  rfl

theorem withdraw_core (p : Path) (r : Requester) : (p.withdraw r).core = p.core := by
  obtain ⟨_, _, eq, _⟩ := withdraw_eq p r
  rw [eq]
  rfl

@[simp] theorem withdrawFetch_core (e : Fin 8) : (withdrawFetch e b).path.core = b.path.core :=
  ite_core (withdraw_core ..) rfl

/-! ### The track unit -/

@[simp] theorem succeed_path (advance : Bool) (g s : Segment) : (succeed x advance g s b).path = b.path :=
  (succeed_web x advance g s b).path

@[simp] theorem admitStarved_path (advance : Bool) (g : Segment) (p : Nat) :
    (admitStarved x advance g p b).path = b.path := ite_path (by simp) (by simp)

@[simp] theorem admitStaged_path (advance : Bool) (g : Segment) (o : StagedOrder) (p : Nat) :
    (admitStaged x advance g o p b).path = b.path := succeed_path ..

@[simp] theorem takeBoundary_path (p : Nat) : (takeBoundary x p b).path = b.path := by
  unfold takeBoundary
  split
  · rfl
  · refine ite_path (ite_path rfl (raise_path ..)) ?_
    split
    · exact succeed_path ..
    · exact admitStarved_path ..
    · split
      · exact admitStaged_path ..
      · exact admitStaged_path ..
      · exact (refreshBehind_web (.refl _) x).path
      · rfl

@[simp] theorem shortenOwed_path (minOrder q : Nat) (c : ContOwed) (n : Int) :
    (shortenOwed minOrder q c n b).path = b.path := ite_path (releaseRef_path ..) rfl

theorem truncateAt_path (g : Segment) (e : PendingSeam) : (truncateAt x g e b).path = b.path := by
  rw [truncateAt_eq, succeed_path, claimOwed_path]
  exact ite_path rfl rfl

theorem seamAtBoundary_path (g : Segment) (e : PendingSeam) : (seamAtBoundary x g e b).path = b.path := by
  refine ite_path ?_ (succeed_path ..)
  split
  · exact (shortenOwed_path ..).trans (succeed_path ..)
  · exact succeed_path ..

theorem coverSeam_path (g : Segment) (e : PendingSeam) : (coverSeam x g e b).path = b.path := by
  unfold coverSeam
  dsimp only
  split
  · exact shortenOwed_path ..
  · rfl

theorem meetSeam_path (g : Segment) (e : PendingSeam) : (meetSeam x g e b).path = b.path :=
  ite_path (seamAtBoundary_path ..) (ite_path (coverSeam_path ..) (ite_path (truncateAt_path ..) (raise_path ..)))

@[simp] theorem resolveRejected_path : (resolveRejected x b).path = b.path := by
  unfold resolveRejected
  split
  · exact admitStarved_path ..
  · rfl

@[simp] theorem takeSeam_path (e : PendingSeam) : (takeSeam x e b).path = b.path := by
  rw [takeSeam_eq]
  split
  · rw [evaluateWants_path, meetSeam_path, resolveRejected_path]
  · exact resolveRejected_path ..

theorem retire_path (g : Segment) : (retire x b g).path = b.path := by
  have handed : (handOn x b g).path = b.path := by simp [handOn, cancelRetired, cancelCues, trigger]
  rw [retire_eq]
  exact ite_path ((evaluateMoved_web (.refl _) x).path.trans handed) ((evaluateWants_path ..).trans handed)

theorem takeDue_path (n : Nat) : ∀ (tried : Bool) (b : Blocks), (takeDue x n tried b).path = b.path := by
  induction n with
  | zero => exact fun _ _ => rfl
  | succ n ih =>
    intro tried b
    unfold takeDue
    split
    · exact ite_path ((ih ..).trans (takeSeam_path ..)) ((ih ..).trans (takeBoundary_path ..))
    · exact (ih ..).trans (takeSeam_path ..)
    · exact (ih ..).trans (takeBoundary_path ..)
    · rfl

@[simp] theorem starvedCheck_path : (starvedCheck x b).path = b.path := by
  unfold starvedCheck
  split
  · exact ite_path rfl rfl
  · rfl

theorem trackAdvance_path : (trackAdvance x b).path = b.path :=
  (takeDue_path ..).trans ((starvedCheck_path ..).trans (foldl_path (retire_path x) _ b))

theorem activeEdge_path : (activeEdge x b).path = b.path :=
  ite_path rfl (ite_path (evaluateWants_path ..) (raise_path ..))

@[simp] theorem resolveReady_path : (resolveReady x b).path = b.path := by
  unfold resolveReady
  split
  · exact ite_path (admitStaged_path ..) rfl
  · rfl

/-! ### The plan reader and the end of a fetch -/

theorem planWord_path (off : Nat) (w : WriteWord) : (planWord x off w b).path = b.path :=
  ite_path (ite_path (raise_path ..) (ite_path rfl (raise_path ..))) rfl

theorem rejectStaged_path (reason : RejectReason) (o : StagedOrder) : (rejectStaged x reason o b).path = b.path :=
  (resolveRejected_path ..).trans (rejectOrder_path ..)

theorem freeingDone_path : (freeingDone x b).path = b.path := by
  refine ite_path ?_ rfl
  dsimp only
  split
  · exact ite_path (lookupStaged_path ..) rfl
  · exact rejectOrder_path ..
  · rfl

theorem handReady_path (e : Fin 8) : (handReady x e b).path = b.path := by
  have rebuilt (l : List Nat) (c : Blocks) : (l.foldl (fun b q => match b.track.find q with
      | some g => rebuildBatch x b g
      | none => b) c).path = c.path := by
    refine foldl_path (fun b q => ?_) l c
    split
    · exact (rebuildBatch_web (.refl b) x).path
    · rfl
  unfold handReady
  dsimp only
  rw [evaluateWants_path]
  split
  · exact (resolveReady_path ..).trans (rebuilt ..)
  · exact rebuilt ..

theorem fetchReady_path (e : Fin 8) (t : Setting) : (fetchReady x e t b).path = b.path := by
  unfold fetchReady
  dsimp only
  split
  · exact (retryLookup_path ..).trans (handReady_path ..)
  · exact handReady_path ..

theorem fetchFailed_core (e : Fin 8) (reason : RejectReason) : (fetchFailed x e reason b).path.core = b.path.core := by
  unfold fetchFailed
  dsimp only
  rw [retryLookup_path]
  split
  · rw [rejectStaged_path]
    exact withdrawFetch_core b e
  · exact withdrawFetch_core b e

theorem fetchBurst_core (ws : List Word) : (fetchBurst x ws b).path.core = b.path.core := by
  unfold fetchBurst
  split
  · rfl
  · refine ite_core rfl ?_
    unfold fetchDone
    dsimp only
    split
    · rw [fetchReady_path]
    · exact fetchFailed_core ..

theorem recordWritten_core (n : Nat) : (recordWritten x n b).path.core = b.path.core := by
  unfold recordWritten
  split
  · rfl
  · exact ite_core rfl (ite_core (withdrawFetch_core ..) (fetchFailed_core ..))

theorem restoreClaim_path (n : Nat) : (restoreClaim b n).path = b.path := by
  unfold restoreClaim
  dsimp only
  split
  · exact ite_path (lookupStaged_path ..) rfl
  · exact ite_path rfl rfl

theorem restoreClaims_path : (restoreClaims b).path = b.path := by
  have claimed := foldl_path restoreClaim_path (restoredNumbers b.track.segs) b
  unfold restoreClaims
  dsimp only
  split
  · exact ite_path claimed ((lookupStaged_path ..).trans claimed)
  · exact claimed

/-! ### A unit event and its takers -/

theorem takeAdvance_path (entering : Bool) (t : Taker) : (takeAdvance x entering b t).path = b.path := by
  cases t with
  | motion => exact ite_path rfl rfl
  | track => exact trackAdvance_path ..
  | station k => exact (stationAdvance_web (.refl b) x).path
  | cues => exact (fireDue_web (.refl b) x).path
  | oven => exact (ovenAdvance_web (.refl b) x).path
  | restart => exact (restartAdvance_web (.refl b) x).path

theorem takeReturn_path (entering : Bool) (t : Taker) : (takeReturn x entering b t).path = b.path := by
  cases t with
  | motion => exact ite_path rfl rfl
  | station k => exact (repeatBoundary_web (.refl b) x).path
  | track | cues | oven | restart => rfl

theorem handMove_path (entering : Bool) (order : List Taker) (v : Move) :
    (handMove x entering order v b).path = b.path := by
  cases v with
  | advance => exact foldl_path (by exact fun b t => takeAdvance_path x b entering t) _ b
  | ret => exact foldl_path (by exact fun b t => takeReturn_path x b entering t) _ b
  | back => exact ite_path (raise_path ..) rfl
  | lostForward => exact (raise_path ..).trans (takeAdvance_path ..)
  | lostBackward => exact raise_path ..

end Untouched

end Sys2Proof.Machine
end

section
/-! The completions of host words and of internal accesses, each by the effect of its class or kind; and the other
commands, the events (R173, R175, R181). -/

namespace Sys2Proof.Machine

/-- What the block that owns a word makes of it, by the word's class (R175). -/
def wordEffect : WordClass → Ctx → CarriedWord → Blocks → Blocks
  | .plan => planEffect
  | .settings => settingsEffect
  | .mount => mountEffect
  | .remount => remountEffect
  | .trim => trimEffect
  | .slotFree => slotFreeEffect
  | .acknowledge => acknowledgeEffect
  | .pageSelect => pageEffect
  | .snapshotDrop | .plain => noEffect
  | .arming => armingEffect

theorem exec_wordCommand (decision : Decision) (c : WordClass) (s : State) :
    exec (wordCommand decision c) s = .next (completeWord c decision (wordEffect c) s) := by cases c <;> rfl

/-- The kinds of access that the command of a kind completes. -/
def accessKinds : AccessKind → List AccessKind
  | .resultWrite | .startWrite => [.resultWrite, .startWrite]
  | k => [k]

theorem mem_accessKinds (k : AccessKind) : k ∈ accessKinds k := by cases k <;> decide

/-- What the requester makes of its access, by the access's kind (R181). -/
def accessEffect : AccessKind → List Word → State → State
  | .anchorRead => onBlocks anchorRead
  | .mountRead => mountRead
  | .snapshotRead => snapshotRead
  | .mapRead => onBlocks mapRead
  | .resultWrite | .startWrite => onBlocks fun _ _ b => b.modRestart resultWritten
  | .snapshotWrite => onBlocks fun _ _ b => b.modRestart snapshotBurstDone
  | .snapshotClosing => onBlocks fun x _ b => b.modRestart (snapshotClosed x)
  | .settingRead => onBlocks fetchBurst
  | .planRead => onBlocks planReadDone
  | .freeingWrite => onBlocks fun x _ b => freeingDone x b
  | .recordBurst => onBlocks fun _ _ b => recordBurstDone b
  | .recordWord0 => onBlocks fun x _ b => recordDone x b
  | .statusBurst => onBlocks fun _ _ b => b.modReport fun r => { r with rewrite := restOfRewrite r.rewrite }

theorem exec_accessCommand (decision : Decision) (k : AccessKind) (s : State) :
    exec (accessCommand decision k) s = .next (completeAccess (accessKinds k) decision (accessEffect k) s) := by
  cases k <;> rfl

theorem accessEffect_keepsOutside (k : AccessKind) : KeepsOutside (accessEffect k) := by
  cases k
  case mountRead => exact mountRead_keepsOutside
  case snapshotRead => exact snapshotRead_keepsOutside
  all_goals exact onBlocks_keepsOutside _

/-- The command is an event of the outside or of a timer, or a reset: no completion. -/
def isEvent : Instr → Bool
  | .encoderPulse .. | .stopDetectExpiry | .speedIntervalExpiry | .seamEdge _ | .markPulseExpiry | .liftTimerExpiry _
  | .accountingTimerExpiry | .cycleTimerExpiry | .exchangeQuietReached | .quietWaitTimeout _ | .commandFrameSent
  | .replyFirstCharacter | .replyTimerExpiry _ | .frameClosed .. | .stallTimerExpiry | .statusTimerExpiry
  | .hostAccessPresented _ | .powerOnReset .. | .resetLine .. => true
  | .planWrite _ | .settingsWrite _ | .mountWrite _ | .remountRequest _ | .trim _ | .outcomeSlotFree _ | .acknowledge _
  | .pageSelect _ | .hostWordComplete _ | .snapshotWindowWrite _ | .armingRequest _ => false
  | .planReadReturned _ | .freeingWriteComplete _ | .settingBurstReturned _ | .recordBurstComplete _
  | .recordWord0Complete _ | .statusBurstComplete _ | .resultWordWritten _ | .anchorBurstReturned _
  | .mountBurstReturned _ | .snapshotReadReturned _ | .outcomeMapReadReturned _ | .snapshotBurstComplete _
  | .snapshotClosingComplete _ => false

/-- A command completes a host word, completes an internal access, or is an event. -/
theorem completion_or_event (c : Instr) :
    (∃ decision k, c = wordCommand decision k) ∨ (∃ decision k, c = accessCommand decision k) ∨ isEvent c = true := by
  cases c
  case planWrite d => exact .inl ⟨d, .plan, rfl⟩
  case settingsWrite d => exact .inl ⟨d, .settings, rfl⟩
  case mountWrite d => exact .inl ⟨d, .mount, rfl⟩
  case remountRequest d => exact .inl ⟨d, .remount, rfl⟩
  case trim d => exact .inl ⟨d, .trim, rfl⟩
  case outcomeSlotFree d => exact .inl ⟨d, .slotFree, rfl⟩
  case acknowledge d => exact .inl ⟨d, .acknowledge, rfl⟩
  case pageSelect d => exact .inl ⟨d, .pageSelect, rfl⟩
  case snapshotWindowWrite d => exact .inl ⟨d, .snapshotDrop, rfl⟩
  case armingRequest d => exact .inl ⟨d, .arming, rfl⟩
  case hostWordComplete d => exact .inl ⟨d, .plain, rfl⟩
  case anchorBurstReturned d => exact .inr (.inl ⟨d, .anchorRead, rfl⟩)
  case mountBurstReturned d => exact .inr (.inl ⟨d, .mountRead, rfl⟩)
  case snapshotReadReturned d => exact .inr (.inl ⟨d, .snapshotRead, rfl⟩)
  case outcomeMapReadReturned d => exact .inr (.inl ⟨d, .mapRead, rfl⟩)
  case resultWordWritten d => exact .inr (.inl ⟨d, .resultWrite, rfl⟩)
  case snapshotBurstComplete d => exact .inr (.inl ⟨d, .snapshotWrite, rfl⟩)
  case snapshotClosingComplete d => exact .inr (.inl ⟨d, .snapshotClosing, rfl⟩)
  case settingBurstReturned d => exact .inr (.inl ⟨d, .settingRead, rfl⟩)
  case planReadReturned d => exact .inr (.inl ⟨d, .planRead, rfl⟩)
  case freeingWriteComplete d => exact .inr (.inl ⟨d, .freeingWrite, rfl⟩)
  case recordBurstComplete d => exact .inr (.inl ⟨d, .recordBurst, rfl⟩)
  case recordWord0Complete d => exact .inr (.inl ⟨d, .recordWord0, rfl⟩)
  case statusBurstComplete d => exact .inr (.inl ⟨d, .statusBurst, rfl⟩)
  all_goals exact .inr (.inr rfl)

/-- An event answers a next state where its operands are well formed (log 3). -/
theorem event_answers {c : Instr} (event : isEvent c = true) (wf : c.wf = true) (s : State) : Answers c s := by
  unfold Answers
  cases c <;> simp only [exec, execSpeedIntervalExpiry, execMarkPulseExpiry, execStopDetectExpiry, execSeamEdge,
    execLiftTimerExpiry, execAccountingTimerExpiry, execCycleTimerExpiry, execExchangeQuietReached, execQuietWaitTimeout,
    execCommandFrameSent, execReplyFirstCharacter, execReplyTimerExpiry, execStallTimerExpiry, execStatusTimerExpiry,
    execPowerOnReset, execResetLine]
  case hostAccessPresented a =>
    by_cases empty : s.blk.path.host = .empty
    · exact ⟨_, exec_hostAccessPresented_taken wf empty⟩
    · exact ⟨_, exec_hostAccessPresented_busy wf empty⟩
  case encoderPulse =>
    unfold execEncoderPulse
    dsimp only
    split <;> exact ⟨_, rfl⟩
  case frameClosed =>
    unfold execFrameClosed
    split
    · split <;> exact ⟨_, rfl⟩
    · exact ⟨_, rfl⟩
  case speedIntervalExpiry | markPulseExpiry | powerOnReset | resetLine => exact ⟨_, rfl⟩
  case stopDetectExpiry | seamEdge | liftTimerExpiry | accountingTimerExpiry | cycleTimerExpiry | exchangeQuietReached |
      quietWaitTimeout | commandFrameSent | replyFirstCharacter | replyTimerExpiry | stallTimerExpiry |
      statusTimerExpiry => split <;> exact ⟨_, rfl⟩
  all_goals cases event

/-- Settles O2: a completion answers, whatever the ports carry, and so does an event of well-formed operands. -/
theorem everyCommandAnswers : Obligations.EveryCommandAnswers := by
  intro c s wf
  rcases completion_or_event c with ⟨decision, k, rfl⟩ | ⟨decision, k, rfl⟩ | event
  · exact ⟨_, exec_wordCommand decision k s⟩
  · exact ⟨_, exec_accessCommand decision k s⟩
  · exact event_answers event wf s

end Sys2Proof.Machine
end

section
/-! The memory port carries the host access exactly while the host access is CARRYING: every step keeps it (R172, R173). -/

namespace Sys2Proof.Machine

/-! ### The two ports -/

/-- The memory port carries the host access exactly while the host access has a word carried. -/
def Path.Agrees (p : Path) : Prop := p.port = .host ↔ p.carried.isSome = true

/-- Agreement reads neither the request slots nor the host run count. -/
theorem agrees_of_core {p q : Path} (core : q.core = p.core) (h : p.Agrees) : q.Agrees :=
  show q.core.Agrees from core ▸ h

/-- A host access that is not CARRYING has no word carried. -/
theorem carried_eq_none {p : Path} (h : ∀ a i j, p.host ≠ .carrying a i j) : p.carried = none := by
  unfold Path.carried
  split
  next a i j carrying => exact absurd carrying (h a i j)
  all_goals rfl

/-- Neither port has the host access. -/
theorem agrees_of_idle {p : Path} (port : p.port ≠ .host) (host : ∀ a i j, p.host ≠ .carrying a i j) : p.Agrees := by
  simp [Path.Agrees, port, carried_eq_none host]

/-- Where the memory port does not carry the host access, the host access is not CARRYING. -/
theorem Path.Agrees.idle {p : Path} (h : p.Agrees) (port : p.port ≠ .host) (a : HostAccess) (i : Nat)
    (j : WordJudgement) : p.host ≠ .carrying a i j := fun carrying =>
  port (h.mpr (by simp [Path.carried, carrying]))

/-- A stalled access is released, and waits for its grant (R163, R184). -/
def HostPort.released : HostPort → HostPort
  | .stalled a => .portWait a
  | p => p

/-- A stalled access that is released is CARRYING neither before nor after. -/
theorem agrees_of_released {p q : Path} (h : p.Agrees) (port : q.port = .host ↔ p.port = .host)
    (host : q.host = p.host.released) : q.Agrees := by
  have carried : q.carried.isSome = p.carried.isSome := by
    unfold Path.carried
    rw [host]
    cases p.host <;> rfl
  unfold Path.Agrees
  rw [port, carried]
  exact h

theorem endStall_released (p : Path) : endStall p = { p with host := p.host.released } := by
  obtain ⟨host, _, _, _, _, _, _⟩ := p
  cases host <;> rfl

/-- A stall that ends leaves the ports in agreement (R163). -/
theorem endStall_agrees {p : Path} (h : p.Agrees) : (endStall p).Agrees := by
  rw [endStall_released]
  exact agrees_of_released h Iff.rfl rfl

/-! ### The end of a step -/

/-- A grant to the host puts its access on the memory port with its word 0 carried. -/
theorem grantHost_agrees {b : Blocks} (h : b.path.Agrees) (x : Ctx) (n : Nat) : (grantHost x b n).path.Agrees := by
  unfold grantHost
  split
  · exact iff_of_true rfl rfl
  · exact h

theorem grantInternal_agrees {b : Blocks} (h : b.path.Agrees) (free : b.path.port = .free) (r : Requester) :
    (grantInternal b r).path.Agrees := by
  unfold grantInternal
  split
  · exact agrees_of_idle nofun (h.idle (by rw [free]; nofun))
  · exact h

theorem arbitrate_agrees {b : Blocks} (h : b.path.Agrees) (x : Ctx) (w : Weigh) : (arbitrate x w b).path.Agrees := by
  unfold arbitrate
  split
  next free _ =>
    unfold grantAmong
    split
    next => exact grantHost_agrees h x _
    next =>
      split
      · exact grantHost_agrees h x _
      · exact grantInternal_agrees h free _
    next => exact grantInternal_agrees h free _
    next => exact h
  next => exact h

theorem captureAtGrant_agrees {b : Blocks} (h : b.path.Agrees) (x : Ctx) : (captureAtGrant x b).path.Agrees := by
  unfold captureAtGrant
  split
  next port _ =>
    split
    · exact agrees_of_idle nofun (h.idle (by rw [port]; nofun))
    · exact h
  next => exact h

theorem settle_agrees {b : Blocks} (h : b.path.Agrees) (x : Ctx) (w : Weigh) : (settle x w b).path.Agrees := by
  obtain ⟨slots, requested⟩ := pumps_path x b
  have before : (pumpReport x (pumpPlan x (pumpCache x (pumpRestart x b)))).path.Agrees := by
    rw [requested]
    exact h
  exact captureAtGrant_agrees (arbitrate_agrees before x w) x

theorem decided_agrees {s : State} (h : s.blk.path.Agrees) (pre : Requests) (decision : Decision) :
    (s.decided pre decision).blk.path.Agrees := settle_agrees h ..

/-! ### Completions -/

theorem planEffect_path (x : Ctx) (w : CarriedWord) (b : Blocks) : (planEffect x w b).path = b.path := by
  unfold planEffect
  split
  · exact raise_path ..
  · exact planWord_path ..
  · rfl

theorem mountEffect_path (x : Ctx) (w : CarriedWord) (b : Blocks) : (mountEffect x w b).path = b.path :=
  (mountEffect_web x w b).path

theorem remountEffect_path (x : Ctx) (w : CarriedWord) (b : Blocks) : (remountEffect x w b).path = b.path := by
  unfold remountEffect judgeRemount
  split
  · split
    · exact (refuseMount_web (modStations_web (.refl _))).path.trans (mountEffect_path ..)
    · rw [acceptRemount, evaluateWants_path, supersedeUnmounted_path, Blocks.modField_path, Blocks.modStations_path,
        mountEffect_path]
  · rfl

theorem acknowledgeEffect_path (x : Ctx) (w : CarriedWord) (b : Blocks) : (acknowledgeEffect x w b).path = b.path := by
  unfold acknowledgeEffect
  split
  next v _ =>
    obtain ⟨_, _, eq, _⟩ := clearClaim_eq x v.value (b.modReport fun r => { r with acks := inc16 r.acks })
    rw [eq]
    rfl
  next => rfl

theorem pageEffect_path (x : Ctx) (w : CarriedWord) (b : Blocks) : (pageEffect x w b).path = b.path := by
  unfold pageEffect
  split <;> rfl

theorem armingEffect_path (x : Ctx) (w : CarriedWord) (b : Blocks) : (armingEffect x w b).path = b.path := by
  unfold armingEffect
  split <;> rfl

/-- What a block makes of a word changes at most the request slots and the host run count of the path unit. -/
theorem wordEffect_core (c : WordClass) (x : Ctx) (w : CarriedWord) (b : Blocks) :
    (wordEffect c x w b).path.core = b.path.core := by
  cases c with
  | plan => exact congrArg Path.core (planEffect_path ..)
  | settings => exact recordWritten_core ..
  | mount => exact congrArg Path.core (mountEffect_path ..)
  | remount => exact congrArg Path.core (remountEffect_path ..)
  | trim => exact congrArg Path.core (trimEffect_web x w b).path
  | acknowledge => exact congrArg Path.core (acknowledgeEffect_path ..)
  | pageSelect => exact congrArg Path.core (pageEffect_path x ..)
  | arming => exact congrArg Path.core (armingEffect_path ..)
  | slotFree | snapshotDrop | plain => rfl

/-- The next word is carried by the memory port, or the access ends and leaves it free (R172). -/
theorem nextWord_agrees {b : Blocks} (carries : b.path.port = .host) (x : Ctx) (w : CarriedWord) :
    (nextWord x w b).path.Agrees := by
  unfold nextWord
  split
  · exact iff_of_true carries rfl
  · exact agrees_of_idle nofun nofun

theorem completeWord_agrees {s : State} (h : s.blk.path.Agrees) (c : WordClass) (decision : Decision) :
    (completeWord c decision (wordEffect c) s).blk.path.Agrees := by
  by_cases fits : ∃ w, s.blk.path.carried = some w ∧ wordClass s.ctx s.blk w = c
  · obtain ⟨w, carried, ofClass⟩ := fits
    have port : s.blk.path.port = .host := h.mpr (by rw [carried]; rfl)
    have kept : (wordEffect c s.ctx w (wordBlocks s w)).path.port = .host :=
      (congrArg Path.port (wordEffect_core c s.ctx w (wordBlocks s w))).trans port
    rw [completeWord_eq carried ofClass]
    exact decided_agrees (nextWord_agrees kept s.ctx w) ..
  · rw [completeWord_other fun w carried ofClass => fits ⟨w, carried, ofClass⟩]
    exact h

theorem completeAccess_agrees {s : State} (h : s.blk.path.Agrees) {kinds : List AccessKind} {decision : Decision}
    {effect : List Word → State → State} (keeps : ∀ ws u, u.blk.path.Agrees → (effect ws u).blk.path.Agrees) :
    (completeAccess kinds decision effect s).blk.path.Agrees := by
  unfold completeAccess
  split
  next a abandoned port =>
    have free : (freePort s.blk).path.Agrees := agrees_of_idle nofun (h.idle (by rw [port]; nofun))
    split
    · refine decided_agrees ?_ ..
      split
      · exact free
      · exact keeps _ _ free
    · exact h
  next => exact h
  next => exact h

/-- A record that fills the slot a read is stalled on releases the read (R163). -/
theorem recordDone_agrees {b : Blocks} (h : b.path.Agrees) (x : Ctx) : (recordDone x b).path.Agrees := by
  unfold recordDone
  split
  · exact h
  · unfold fillStall
    split
    next => exact endStall_agrees h
    all_goals exact h

theorem mapRead_path (x : Ctx) (ws : List Word) (b : Blocks) : (mapRead x ws b).path = b.path := by
  unfold mapRead
  split
  · rfl
  · exact ite_path rfl rfl

theorem anchorRead_path (x : Ctx) (ws : List Word) (b : Blocks) : (anchorRead x ws b).path = b.path := by
  unfold anchorRead
  split
  · rfl
  · refine ite_path rfl ?_
    split <;> rfl

/-! ### Arming results -/

/-- An arming result withdraws requests and releases a stalled read (R184). -/
theorem armPath_agrees {p : Path} (h : p.Agrees) : (armPath p).Agrees := by
  have core : (((p.withdraw .cache).withdraw .plan).withdraw .report).core = p.core := by simp only [withdraw_core]
  have withdrawn := agrees_of_core core h
  unfold armPath
  dsimp only
  generalize ((p.withdraw .cache).withdraw .plan).withdraw .report = q at withdrawn ⊢
  exact agrees_of_released withdrawn Iff.rfl (by cases q.host <;> rfl)

theorem coldResult_agrees {s : State} (h : s.blk.path.Agrees) (code : ResultCode) (y : Arming) :
    (coldResult code y s).blk.path.Agrees := by
  have cold : (coldResult code y s).blk.path = { armPath s.blk.path with dropped := 0 } :=
    (startCycle_web (.refl ((coldBlocks (parseAnchor y.anchor) code y s.blk).modTrack _)) _).path
  rw [cold]
  exact armPath_agrees h

theorem warmResult_agrees {s : State} (h : s.blk.path.Agrees) (d : SnapshotData) (y : Arming) :
    (warmResult d y s).blk.path.Agrees := by
  have placed (x : Ctx) : (restoreProbes x (placeStations x (warmBlocks x d y s.blk))).path = armPath s.blk.path :=
    (restoreProbes_web (placeStations_web (.refl _) x) x).path
  have backlog (b : Blocks) : (raiseBacklog b).path = b.path := ite_path (raise_path ..) rfl
  rw [warmResult_eq]
  dsimp only [State.setBlk_blk]
  rw [(startCycle_web (.refl _) _).path, restoreClaims_path, backlog, placed]
  exact armPath_agrees h

theorem mountRead_agrees {s : State} (h : s.blk.path.Agrees) (ws : List Word) : (mountRead ws s).blk.path.Agrees := by
  unfold mountRead
  split
  · exact h
  · dsimp only
    split
    · exact h
    · unfold mountDone
      split
      · exact h
      · split
        · exact coldResult_agrees h ..
        · split <;> exact h

theorem snapshotRead_agrees {s : State} (h : s.blk.path.Agrees) (ws : List Word) :
    (snapshotRead ws s).blk.path.Agrees := by
  unfold snapshotRead
  split
  · exact h
  · dsimp only
    split
    · exact h
    · split
      · exact h
      · split
        · exact warmResult_agrees h ..
        · exact coldResult_agrees h ..

theorem accessEffect_agrees (k : AccessKind) (ws : List Word) {s : State} (h : s.blk.path.Agrees) :
    (accessEffect k ws s).blk.path.Agrees := by
  have untouched {b : Blocks} (same : b.path.core = s.blk.path.core) : (s.setBlk b).blk.path.Agrees :=
    agrees_of_core same h
  cases k with
  | mountRead => exact mountRead_agrees h ws
  | snapshotRead => exact snapshotRead_agrees h ws
  | recordWord0 => exact recordDone_agrees h s.ctx
  | anchorRead => exact untouched (congrArg Path.core (anchorRead_path ..))
  | mapRead => exact untouched (congrArg Path.core (mapRead_path ..))
  | settingRead => exact untouched (fetchBurst_core ..)
  | freeingWrite => exact untouched (congrArg Path.core (freeingDone_path ..))
  | planRead | recordBurst | statusBurst | resultWrite | startWrite | snapshotWrite | snapshotClosing => exact h

/-! ### Events -/

/-- What an event keeps: job memory (R173), and the agreement of the ports. -/
structure EventKeeps (s t : State) : Prop where
  mem : t.mem = s.mem
  agrees : s.blk.path.Agrees → t.blk.path.Agrees

theorem EventKeeps.refl (s : State) : EventKeeps s s := ⟨rfl, id⟩

theorem blockStep_eventKeeps {f : Ctx → Blocks → Blocks} {s : State}
    (h : s.blk.path.Agrees → (f s.ctx s.blk).path.Agrees) : EventKeeps s (blockStep f s) :=
  ⟨decided_mem .., fun agrees => decided_agrees (s := s.setBlk (f s.ctx s.blk)) (h agrees) ..⟩

/-- A step of blocks that leaves the path unit. -/
theorem blockStep_untouched {f : Ctx → Blocks → Blocks} {s : State} (same : (f s.ctx s.blk).path = s.blk.path) :
    EventKeeps s (blockStep f s) := blockStep_eventKeeps fun agrees => by rw [same]; exact agrees

theorem unitEvent_path (order : List Taker) (d : Travel) (s : State) : (unitEvent order d s).blk.path = s.blk.path := by
  have marked : (markMoved s.blk).path = s.blk.path := (markMoved_web (.refl _)).path
  unfold unitEvent
  dsimp only
  split
  · exact (handMove_path ..).trans marked
  · exact marked

theorem pulse_eventKeeps (order : List Taker) (d : Travel) (s : State) : EventKeeps s (pulse order d s) := by
  refine ⟨(pulse_outside order d s).1, fun agrees => ?_⟩
  unfold pulse
  dsimp only
  split
  · refine decided_agrees ?_ ..
    rw [unitEvent_path]
    exact agrees
  · exact agrees

theorem encoderPulse_eventKeeps {encA encB : Bool} {order : List Taker} {s t : State}
    (h : execEncoderPulse encA encB order s = .next t) : EventKeeps s t := by
  have pulsed (m : Motion) (d : Travel) : EventKeeps s (pulse order d (s.setMotion m)) :=
    ⟨(pulse_eventKeeps order d (s.setMotion m)).mem, (pulse_eventKeeps order d (s.setMotion m)).agrees⟩
  unfold execEncoderPulse at h
  dsimp only at h
  split at h <;> cases h
  · exact .refl s
  · exact pulsed ..
  · exact pulsed ..
  · exact ⟨rfl, id⟩

/-- An access is taken by an empty port, so by one that the memory port does not carry (R172). -/
theorem takeAccess_agrees {b : Blocks} (h : b.path.Agrees) (empty : b.path.host = .empty) (x : Ctx) (a : HostAccess) :
    (takeAccess x a b).path.Agrees := by
  have port : (judgeFreeze x a b).path.port ≠ .host := by
    obtain ⟨_, _, _, _, _, eq⟩ := judgeFreeze_work x a b
    rw [eq]
    exact fun host => by simpa [Path.carried, empty] using h.mp host
  unfold takeAccess holdAccess
  split
  · exact agrees_of_idle port nofun
  · exact agrees_of_idle port nofun

theorem resetPath_agrees {p : Path} (h : p.Agrees) : (resetPath p).Agrees := by
  unfold resetPath
  exact agrees_of_released h (by cases p.port <;> simp) (by cases p.host <;> rfl)

theorem event_keeps {c : Instr} (event : isEvent c = true) {s t : State} (h : exec c s = .next t) : EventKeeps s t := by
  cases c <;> simp only [exec, execSpeedIntervalExpiry, execMarkPulseExpiry, execStopDetectExpiry, execSeamEdge,
    execLiftTimerExpiry, execAccountingTimerExpiry, execCycleTimerExpiry, execExchangeQuietReached, execQuietWaitTimeout,
    execCommandFrameSent, execReplyFirstCharacter, execReplyTimerExpiry, execStallTimerExpiry, execStatusTimerExpiry] at h
  case encoderPulse => exact encoderPulse_eventKeeps h
  case speedIntervalExpiry | markPulseExpiry => cases h; exact ⟨rfl, id⟩
  case stopDetectExpiry =>
    split at h <;> cases h
    · exact .refl s
    · exact ⟨decided_mem .., fun agrees => decided_agrees (by exact agrees) ..⟩
  case seamEdge =>
    split at h <;> cases h
    · exact blockStep_untouched (activeEdge_path ..)
    · exact .refl s
  case liftTimerExpiry =>
    split at h <;> cases h
    · exact .refl s
    · exact blockStep_untouched (liftExpiry_web (.refl _) _).path
  case accountingTimerExpiry =>
    split at h <;> cases h
    · exact blockStep_untouched (accountingTick_web (.refl _) _).path
    · exact .refl s
  case cycleTimerExpiry =>
    split at h <;> cases h
    · exact .refl s
    · exact blockStep_untouched (cycleExpiry_web (.refl _) _).path
  case exchangeQuietReached =>
    split at h <;> cases h
    · exact blockStep_untouched (sendCommand_web (.refl _) _).path
    · exact .refl s
  case quietWaitTimeout | replyTimerExpiry =>
    split at h <;> cases h
    · exact .refl s
    · exact blockStep_untouched (missExchange_web (.refl _) _).path
  case commandFrameSent =>
    split at h <;> cases h
    · exact blockStep_untouched rfl
    · exact .refl s
  case replyFirstCharacter | statusTimerExpiry =>
    split at h <;> cases h
    · exact .refl s
    · exact blockStep_untouched rfl
  case stallTimerExpiry =>
    split at h <;> cases h
    · exact .refl s
    · exact blockStep_eventKeeps fun agrees => endStall_agrees agrees
  case frameClosed =>
    unfold execFrameClosed at h
    split at h
    · split at h <;> cases h
      · exact blockStep_untouched (judgeFrame_web (.refl _) _).path
      · exact blockStep_untouched rfl
    · cases h; exact .refl s
  case hostAccessPresented a =>
    unfold execHostAccessPresented at h
    split at h
    · cases h
    · split at h <;> cases h
      next empty => exact blockStep_eventKeeps fun agrees => takeAccess_agrees agrees empty s.ctx a
      next => exact .refl s
  case powerOnReset => cases h; exact ⟨rfl, fun _ => agrees_of_idle nofun nofun⟩
  case resetLine => cases h; exact ⟨settled_mem .., fun agrees => settle_agrees (resetPath_agrees agrees) ..⟩
  all_goals cases event

/-! ### Every command -/

theorem exec_agrees {c : Instr} {s t : State} (h : exec c s = .next t) (agrees : s.blk.path.Agrees) :
    t.blk.path.Agrees := by
  rcases completion_or_event c with ⟨decision, k, rfl⟩ | ⟨decision, k, rfl⟩ | event
  · rw [exec_wordCommand] at h
    cases h
    exact completeWord_agrees agrees k decision
  · rw [exec_accessCommand] at h
    cases h
    exact completeAccess_agrees agrees fun ws _ => accessEffect_agrees k ws
  · exact (event_keeps event h).agrees agrees

/-- Settles O12: every command keeps the agreement of the ports. -/
theorem portAndHostAgree : Obligations.PortAndHostAgree := by
  intro s t agrees h
  unfold step at h
  split at h
  · cases h
    exact agrees
  next c rest _ => exact exec_agrees (s := s.setPending rest) h agrees

/-- Settles O16: a command that is no completion is an event, and an event keeps job memory. -/
theorem otherCommandsKeepMemory : Obligations.OtherCommandsKeepMemory := by
  intro c s t noWord noAccess h k _
  rcases completion_or_event c with ⟨decision, kind, rfl⟩ | ⟨decision, kind, rfl⟩ | event
  · exact absurd rfl (noWord decision kind)
  · exact absurd rfl (noAccess decision kind)
  · rw [(event_keeps event h).mem]

end Sys2Proof.Machine
end

section
/-! The completions of host words and of internal accesses, and what job memory reads after them (R171 to R173, R175,
R176, R184). -/

namespace Sys2Proof.Machine

/-! ### What memory reads after a word is written (R171, log 2) -/

/-- A byte lane is that of one word address. -/
theorem laneKey_eq {a a' i i' : Nat} (hi : i < 4) (hi' : i' < 4) (h : laneKey a i = laneKey a' i') :
    wordAddr a = wordAddr a' ∧ i = i' := by
  unfold laneKey at h
  omega

section Lanes
variable (a : Nat) (en : BitVec 4) (v : Word)

theorem readByte_lanes_other {k : Nat} (l : List Nat) (other : ∀ i ∈ l, k ≠ laneKey a i) (m : Memory) :
    (l.foldl (Memory.writeLane a en v) m).readByte k = m.readByte k := by
  induction l generalizing m with
  | nil => rfl
  | cons i l ih =>
    rw [List.foldl_cons, ih fun j hj => other j (List.mem_cons_of_mem _ hj)]
    exact readByte_writeLane_other _ _ _ _ _ _ (other i List.mem_cons_self)

/-- Of lanes written one after the other, each enabled one reads its bits of the word. -/
theorem readByte_lanes_same {i : Nat} (enabled : en.getLsbD i = true) (l : List Nat) (apart : l.Nodup)
    (lanes : ∀ j ∈ l, j < 4) (written : i ∈ l) {m : Memory} (canonical : m.wf = true) :
    (l.foldl (Memory.writeLane a en v) m).readByte (laneKey a i) = v.extractLsb' (8 * i) 8 := by
  induction l generalizing m with
  | nil => cases written
  | cons j l ih =>
    rw [List.nodup_cons] at apart
    rw [List.foldl_cons]
    rcases List.mem_cons.mp written with rfl | later
    · have others : ∀ n ∈ l, laneKey a i ≠ laneKey a n := fun n hn same =>
        apart.1 ((laneKey_eq (lanes i written) (lanes n (List.mem_cons_of_mem _ hn)) same).2 ▸ hn)
      rw [readByte_lanes_other a en v l others, Memory.writeLane, if_pos enabled]
      exact readByte_writeByte _ _ _ canonical
    · exact ih apart.2 (fun n hn => lanes n (List.mem_cons_of_mem _ hn)) later (wf_writeLane _ _ _ _ _ canonical)

/-- An enabled lane reads its bits of the word written. -/
theorem readByte_writeWord_enabled {m : Memory} (canonical : m.wf = true) {i : Nat} (lane : i < 4)
    (enabled : en.getLsbD i = true) : (m.writeWord a en v).readByte (laneKey a i) = v.extractLsb' (8 * i) 8 :=
  readByte_lanes_same a en v enabled [0, 1, 2, 3] (by decide) (by decide) (by simp; omega) canonical

end Lanes

/-- The bytes of a word, put together. -/
theorem append_bytes (v : Word) :
    v.extractLsb' 24 8 ++ v.extractLsb' 16 8 ++ v.extractLsb' 8 8 ++ v.extractLsb' 0 8 = v := by
  rw [BitVec.extractLsb'_append_extractLsb'_eq_extractLsb' (by rfl),
    BitVec.extractLsb'_append_extractLsb'_eq_extractLsb' (by rfl),
    BitVec.extractLsb'_append_extractLsb'_eq_extractLsb' (by rfl)]
  exact BitVec.extractLsb'_eq_self

/-- A full word written reads back. -/
theorem readWord_writeWord {m : Memory} (canonical : m.wf = true) (a : Nat) (v : Word) :
    (m.writeWord a 0xF#4 v).readWord a = v := by
  have lane {i : Nat} (h : i < 4) : (m.writeWord a 0xF#4 v).readByte (laneKey a i) = v.extractLsb' (8 * i) 8 :=
    readByte_writeWord_enabled a _ v canonical h (by interval_cases i <;> rfl)
  rw [Memory.readWord, lane (by decide : 3 < 4), lane (by decide : 2 < 4), lane (by decide : 1 < 4),
    lane (by decide : 0 < 4)]
  exact append_bytes v

/-- Words written at other addresses leave a word. -/
theorem readWord_writeWords_other {ws : List Word} {m : Memory} {a a' : Nat}
    (apart : ∀ j < ws.length, wordAddr (a + j) ≠ wordAddr a') : (m.writeWords a ws).readWord a' = m.readWord a' := by
  have lane (i : Nat) (h : i < 4) : (m.writeWords a ws).readByte (laneKey a' i) = m.readByte (laneKey a' i) :=
    readByte_writeWords_other ws m a _ fun j hj n hn same => apart j hj (laneKey_eq h hn same).1.symm
  rw [Memory.readWord, lane 3 (by decide), lane 2 (by decide), lane 1 (by decide), lane 0 (by decide)]
  rfl

/-- Full words written at consecutive addresses read back, where they do not come around the memory (R171). -/
theorem readWord_writeWords (ws : List Word) : ∀ {m : Memory} {a : Nat}, m.wf = true → ws.length ≤ Config.memoryWords →
    ∀ j (h : j < ws.length), (m.writeWords a ws).readWord (a + j) = ws[j] := by
  induction ws with
  | nil => exact fun _ _ _ h => absurd h (Nat.not_lt_zero _)
  | cons v ws ih =>
    intro m a canonical room j h
    rw [List.length_cons] at room
    cases j with
    | zero =>
      have apart : ∀ n < ws.length, wordAddr (a + 1 + n) ≠ wordAddr a := by
        intro n hn
        simp only [wordAddr, Config.memoryWords] at room ⊢
        omega
      exact (readWord_writeWords_other apart).trans (readWord_writeWord canonical a v)
    | succ j =>
      have shifted : a + (j + 1) = a + 1 + j := by omega
      rw [Memory.writeWords, shifted]
      exact ih (wf_writeWord _ _ _ _ canonical) (by omega) j _

/-! ### A host word (R172, R173, R175, R176) -/

/-- The drop test reads nothing that the end of a step may begin. -/
theorem judgeWord_follows {u t : State} (follows : FollowsButPath u t) (x : Ctx) (a : HostAccess) (i : Nat) :
    judgeWord x t.blk a i = judgeWord x u.blk a i := by
  obtain ⟨_, _, _, _, _, _, _, _, _, _, _, plan, _, restart, _⟩ := follows
  obtain ⟨posted, _, take⟩ := ring_of_planFollows plan
  exact judgeWord_congr (live_of_part (by rw [restart])) take posted x a i

/-- What the completion of a host word leaves: memory with the word, the word read handed back, the drop counted, and the
next word carried or the access ended (R172, R175, R176). -/
structure WordCompleted (s : State) (w : CarriedWord) (t : State) : Prop where
  cfg : t.cfg = s.cfg
  motion : t.motion = s.motion
  pending : t.pending = s.pending
  mem : t.mem = carryWord w s.mem
  readData : t.blk.path.readData = s.blk.path.readData ++ readWordOf w s.mem
  dropped : t.blk.path.dropped = if w.judged = .pass then s.blk.path.dropped else inc32 s.blk.path.dropped
  host : t.blk.path.host = if w.index + 1 < w.access.count then
    .carrying w.access (w.index + 1) (judgeWord t.ctx t.blk w.access (w.index + 1)) else .empty

theorem completeWord_completed {s : State} {w : CarriedWord} (carried : s.blk.path.carried = some w) (decision : Decision) :
    let c := wordClass s.ctx s.blk w
    WordCompleted s w (completeWord c decision (wordEffect c) s) := by
  intro c
  obtain ⟨follows, _, dropped, readData, host⟩ :=
    completeWord_spec (decision := decision) (effect := wordEffect c) carried rfl
  have core := wordEffect_core c s.ctx w (wordBlocks s w)
  have judged := judgeWord_follows follows s.ctx w.access (w.index + 1)
  obtain ⟨cfg, motion, mem, pending, _⟩ := follows
  have ctx : (completeWord c decision (wordEffect c) s).ctx = s.ctx := by rw [State.ctx, cfg, motion]; rfl
  refine ⟨cfg, motion, pending, mem, readData.trans (congrArg Path.readData core),
    dropped.trans (congrArg Path.dropped core), ?_⟩
  rw [host, ctx, judged]
  rfl

/-- The command of a carried word's class answers with the word completed. -/
theorem exec_wordCommand_completed {s t : State} {w : CarriedWord} {decision : Decision}
    (carried : s.blk.path.carried = some w) (h : exec (wordCommand decision (wordClass s.ctx s.blk w)) s = .next t) :
    WordCompleted s w t := by
  rw [exec_wordCommand] at h
  cases h
  exact completeWord_completed carried decision

/-- A dropped word and a word read store nothing (R175, R176). -/
theorem carryWord_unstored {w : CarriedWord} (h : w.judged ≠ .pass ∨ w.word = none) (m : Memory) : carryWord w m = m := by
  unfold carryWord
  split
  next pass word =>
    rcases h with dropped | read
    · exact absurd pass dropped
    · rw [read] at word
      cases word
  next => rfl

theorem carryWord_passed {w : CarriedWord} {v : WriteWord} (pass : w.judged = .pass) (word : w.word = some v) (m : Memory) :
    carryWord w m = m.writeWord w.addr v.enables v.value := by
  rw [carryWord, pass, word]

/-- A word of no command of its own has no other effect (R175). -/
theorem exec_hostWordComplete_leaves {s : State} {w : CarriedWord} {v : WriteWord} (decision : Decision)
    (carried : s.blk.path.carried = some w) (pass : w.judged = .pass) (word : w.word = some v)
    (plain : wordClass s.ctx s.blk w = .plain) :
    ∃ t, exec (.hostWordComplete decision) s = .next t ∧ WordLeaves s w v s.blk t := by
  obtain ⟨follows, freeze, dropped, _⟩ := completeWord_spec (decision := decision) (effect := noEffect) carried plain
  rw [carryWord_passed pass word] at follows
  exact ⟨_, rfl, followsButPath_setPath follows, freeze, dropped.trans (if_pos pass)⟩

/-- An anchor word that is no arming request is a word of no command (R178). -/
theorem classOf_anchor {b : Blocks} {v : WriteWord} {off : Nat} (other : off ≠ 63 ∨ v.enables ≠ 0xF#4 ∨ v.value = 0) :
    classOf b v (.anchor, off) = .plain := by
  refine if_neg fun ⟨last, closing⟩ => ?_
  rw [fullNonzero, decide_eq_true_iff] at closing
  obtain ⟨full, nonzero⟩ := closing
  rcases other with h | h | h
  · exact h last
  · exact h full
  · exact nonzero h

/-- Settles O14: the completion of a word by its class, the bytes it stores, and the words of no command. -/
theorem hostWordsCompleteAndStore : Obligations.HostWordsCompleteAndStore := by
  refine ⟨fun s w decision carried => ⟨_, exec_wordCommand .., ?_⟩,
    fun s t w decision carried h => ⟨fun v pass word => ?_, fun unstored k _ => ?_⟩,
    fun s w v decision carried pass word plain => exec_hostWordComplete_leaves decision carried pass word plain,
    fun s w v off pass word which => ?_⟩
  · obtain ⟨cfg, motion, pending, mem, readData, dropped, host⟩ := completeWord_completed carried decision
    exact ⟨cfg, motion, pending, mem, readData, dropped, host⟩
  · have mem := (exec_wordCommand_completed carried h).mem
    rw [carryWord_passed pass word] at mem
    constructor
    · intro k outside
      rw [mem]
      exact readByte_writeWord_other _ _ _ _ _ fun i lane enabled same => outside ⟨i, lane, enabled, same⟩
    · intro canonical i lane enabled
      rw [mem]
      exact readByte_writeWord_enabled _ _ _ canonical lane enabled
  · rw [(exec_wordCommand_completed carried h).mem, carryWord_unstored unstored]
  · rcases which with empty | carries | ⟨carries, other⟩
    · rw [wordClass, pass, word]
      exact if_pos empty
    · rw [wordClass_of_carries carries]
      rfl
    · rw [wordClass_of_carries carries]
      exact classOf_anchor other

/-! ### An internal access (R173, R181, R184) -/

/-- The command of an access's kind answers with memory as the access leaves it. -/
theorem completeAccess_mem {s : State} {a : Access} {abandoned : Bool} (port : s.blk.path.port = .internal a abandoned)
    (decision : Decision) :
    let t := completeAccess (accessKinds a.kind) decision (accessEffect a.kind) s
    t.mem = s.mem.carry a ∧ t.pending = s.pending := by
  obtain ⟨mem, pending⟩ := accessEffect_keepsOutside a.kind (s.mem.readWords a.addr a.count)
    ((s.setMem (s.mem.carry a)).setBlk (freePort s.blk))
  dsimp only
  rw [completeAccess_eq port (mem_accessKinds a.kind), decided_mem, decided_pending]
  cases abandoned with
  | true => exact ⟨rfl, rfl⟩
  | false => exact ⟨mem, pending⟩

/-- An access that a reset has abandoned frees the port, and has no effect beside (R184). -/
theorem completeAccess_abandoned {s : State} {a : Access} (port : s.blk.path.port = .internal a true) (decision : Decision) :
    let t := completeAccess (accessKinds a.kind) decision (accessEffect a.kind) s
    FollowsButPath (s.setMem (s.mem.carry a)) t ∧ t.blk.path.freeze = s.blk.path.freeze := by
  dsimp only
  rw [completeAccess_eq port (mem_accessKinds a.kind)]
  obtain ⟨follows, freeze, _⟩ := decided_follows s.blk.path.requests decision
    ((s.setMem (s.mem.carry a)).setBlk (freePort s.blk))
  exact ⟨followsButPath_setPath follows, freeze⟩

theorem carry_read {a : Access} (read : a.data = none) (m : Memory) : m.carry a = m := by rw [Memory.carry, read]

theorem carry_write {a : Access} {ws : List Word} (write : a.data = some ws) (m : Memory) :
    m.carry a = m.writeWords a.addr ws := by rw [Memory.carry, write]

/-- Settles O15: the completion of an access by its kind, and the bytes it stores. -/
theorem internalAccessesCompleteAndStore : Obligations.InternalAccessesCompleteAndStore := by
  refine ⟨fun s a abandoned decision port => ⟨_, exec_accessCommand .., ?_⟩, fun s t a abandoned decision port h => ?_⟩
  · obtain ⟨mem, pending⟩ := completeAccess_mem port decision
    refine ⟨mem, pending, fun gone => ?_⟩
    subst gone
    exact completeAccess_abandoned port decision
  · have mem : t.mem = s.mem.carry a := by
      rw [exec_accessCommand] at h
      cases h
      exact (completeAccess_mem port decision).1
    refine ⟨fun read k _ => ?_, fun ws write => ?_⟩
    · rw [mem, carry_read read]
    · rw [carry_write write] at mem
      unfold ReadsSameOutside
      rw [mem]
      refine ⟨fun k outside => ?_, fun canonical short j hj => ?_⟩
      · exact readByte_writeWords_other ws _ _ k fun j hj i lane same => outside ⟨j, hj, i, lane, same⟩
      · exact readWord_writeWords ws canonical (short.trans (by decide)) j hj

end Sys2Proof.Machine
end

section
/-! The SNAPSHOT window (R177), and the grants of the arbiter (R181, R182, log 9). -/

namespace Sys2Proof.Machine

/-! ### The SNAPSHOT window (R177) -/

/-- A non-empty word of the SNAPSHOT window is judged dropped, at any offset. -/
theorem judgeWord_snapshot {x : Ctx} {b : Blocks} {a : HostAccess} {i off : Nat} {v : WriteWord}
    (word : hostWriteWord a i = some v) (enabled : v.enables ≠ 0)
    (place : windowOf x b (hostWordAt a i) = (.snapshot, off)) : judgeWord x b a i = .dropSnapshot := by
  rw [judgeWord, word]
  dsimp only
  rw [if_neg enabled, place]

/-- Settles O53: the drop test, the completion of a dropped word, and the part's own snapshot write. -/
theorem snapshotWindowDropsWrites : Obligations.SnapshotWindowDropsWrites := by
  refine ⟨fun x b a i v off => judgeWord_snapshot, fun s w decision carried dropped => ?_, fun _ _ _ _ _ => rfl,
    fun x b a i idle => judgeWord_idle idle x a i, fun s a decision carries kind => ⟨_, rfl, ?_⟩⟩
  · have notPass : w.judged ≠ .pass := by rw [dropped]; nofun
    have ofClass : wordClass s.ctx s.blk w = .snapshotDrop := by rw [wordClass, dropped]
    obtain ⟨follows, _, count, _⟩ := completeWord_spec (decision := decision) (effect := noEffect) carried ofClass
    rw [carryWord_unstored (.inl notPass)] at follows
    have follows' : FollowsButPath s _ := followsButPath_setPath follows
    obtain ⟨_, _, mem, _⟩ := id follows'
    exact ⟨_, rfl, mem, count.trans (if_neg notPass), follows'⟩
  · have work : ButPath s.blk.path (s.blk.modRestart snapshotBurstDone) ((freePort s.blk).modRestart snapshotBurstDone) :=
      ⟨(freePort s.blk).path, rfl, rfl, rfl⟩
    obtain ⟨⟨_, _, mem, _⟩, _, count⟩ :=
      completeAccess_leaves carries (kinds := [.snapshotWrite]) (by simp [kind]) (decision := decision)
        (f := fun _ _ b => b.modRestart snapshotBurstDone) work
    exact ⟨mem, count⟩

/-! ### The requests that wait (R181) -/

/-- The requesters that wait are listed by rank. -/
theorem waiting_sorted (p : Path) : p.waiting.Pairwise fun r r' => r.rank ≤ r'.rank :=
  List.Pairwise.filter _ (by decide)

theorem mem_waiting {p : Path} {r : Requester} : r ∈ p.waiting ↔ (p.slot r).isSome = true := by
  have listed : r ∈ Requester.all := by cases r <;> decide
  simp [Path.waiting, listed]

/-- The first that waits has the highest rank. -/
theorem rank_of_waiting {p : Path} {r : Requester} {rest : List Requester} (first : p.waiting = r :: rest)
    {r' : Requester} (waits : (p.slot r').isSome = true) : r.rank ≤ r'.rank := by
  have sorted := waiting_sorted p
  rw [first, List.pairwise_cons] at sorted
  rcases List.mem_cons.mp (first ▸ mem_waiting.mpr waits) with rfl | later
  · exact le_rfl
  · exact sorted.1 r' later

/-! ### The grants (R182) -/

theorem grantHost_waiting {b : Blocks} {a : HostAccess} (waits : b.path.host = .portWait a) (x : Ctx) (run : Nat) :
    grantHost x b run = b.setPath
      { b.path with host := .carrying a 0 (judgeWord x b a 0), port := .host, readData := [], hostRun := run } := by
  rw [grantHost, waits]

theorem grantInternal_slot {b : Blocks} {r : Requester} {q : Access} (slot : b.path.slot r = some q) :
    grantInternal b r = b.setPath
      { b.path with slots := b.path.slots.set r.rank none, port := .internal q false, hostRun := 0 } := by
  rw [grantInternal, slot]

/-- At a free port a decision grants among the requests that it weighs. -/
theorem arbitrate_weighed {b : Blocks} {w : Weigh} {q : Requests} (free : b.path.port = .free)
    (weighed : b.path.weighed w = some q) (x : Ctx) : arbitrate x w b = grantAmong x b q := by
  rw [arbitrate, free, weighed]

theorem arbitrate_busy {b : Blocks} (busy : b.path.port ≠ .free) (x : Ctx) (w : Weigh) : arbitrate x w b = b := by
  unfold arbitrate
  split
  next free _ => exact absurd free busy
  next => rfl

theorem arbitrate_held (x : Ctx) (b : Blocks) : arbitrate x .held b = b := by
  unfold arbitrate
  split
  next weighed => cases weighed
  next => rfl

theorem requests_waiting {p : Path} {a : HostAccess} (waits : p.host = .portWait a) : p.requests = ⟨true, p.waiting⟩ := by
  rw [Path.requests, waits]

theorem requests_no_host {p : Path} (absent : ∀ a, p.host ≠ .portWait a) : p.requests = ⟨false, p.waiting⟩ := by
  unfold Path.requests
  split
  next a waits => exact absurd waits (absent a)
  next => rfl

/-- The host is granted below a run of 4, and where no internal request waits, which leaves the run (R182). -/
theorem arbitrate_grants_host {b : Blocks} (free : b.path.port = .free) {a : HostAccess}
    (waits : b.path.host = .portWait a) (turn : b.path.hostRun < 4 ∨ b.path.waiting = []) (x : Ctx) :
    arbitrate x .all b =
      grantHost x b (if b.path.waiting = [] then b.path.hostRun else b.path.hostRun + 1) := by
  rw [arbitrate_weighed free rfl, requests_waiting waits]
  cases waiting : b.path.waiting with
  | nil => rfl
  | cons r rest =>
    have below : b.path.hostRun < 4 := turn.resolve_right (by rw [waiting]; nofun)
    exact if_pos below

/-- The first internal request is granted with no host request, and at a run of 4 (R182). -/
theorem arbitrate_grants_internal {b : Blocks} (free : b.path.port = .free) {r : Requester} {rest : List Requester}
    (waiting : b.path.waiting = r :: rest) (turn : (∀ a, b.path.host ≠ .portWait a) ∨ 4 ≤ b.path.hostRun) (x : Ctx) :
    arbitrate x .all b = grantInternal b r := by
  rw [arbitrate_weighed free rfl]
  by_cases host : ∃ a, b.path.host = .portWait a
  · obtain ⟨a, waits⟩ := host
    have ran : 4 ≤ b.path.hostRun := turn.resolve_left fun absent => absent a waits
    rw [requests_waiting waits, waiting]
    exact if_neg (Nat.not_lt.mpr ran)
  · rw [requests_no_host fun a waits => host ⟨a, waits⟩, waiting]
    rfl

/-- A decision among earlier requests, the host's not of them, grants the first of them that still waits (log 9). -/
theorem arbitrate_among {b : Blocks} (free : b.path.port = .free) {q : Requests} {r : Requester} {rest : List Requester}
    (early : b.path.waiting.filter (fun r => q.ints.contains r) = r :: rest) (noHost : q.host = false) (x : Ctx)
    (joined : Bool) : arbitrate x (.among q joined) b = grantInternal b r := by
  have requests : b.path.early q = ⟨false, r :: rest⟩ := by
    rw [← early, Path.early, noHost]
    rfl
  have weighed : b.path.weighed (.among q joined) = some ⟨false, r :: rest⟩ := by
    rw [Path.weighed, requests]
    rfl
  rw [arbitrate_weighed free weighed]
  rfl

/-! ### Where a decision is left to the next command (log 9) -/

theorem joined_iff (s : State) : s.joined = true ↔
    s.moments.head? = some true ∧ ∃ c rest, s.pending = c :: rest ∧ s.decides c = true := by
  unfold State.joined
  rw [Bool.and_eq_true_iff, List.headD_eq_head?_getD]
  refine and_congr ?_ ?_
  · cases s.moments.head? <;> simp
  · cases s.pending <;> simp

theorem weigh_held_iff (pre : Requests) (s : State) : Weigh.of pre s.joined .withNew = .held ↔ s.joined = true := by
  unfold Weigh.of
  cases s.joined <;> simp

/-- Settles O54: the grants at a free port, the port that is not free, the decision left to the next command, and the
decision among earlier requests. -/
theorem arbiterGrantsByRank : Obligations.ArbiterGrantsByRank := by
  refine ⟨fun x b free => ⟨fun a waits turn => ?_, fun r rest q waiting slot turn => ?_⟩,
    fun x w b busy => arbitrate_busy busy x w,
    ⟨arbitrate_held, fun s pre => (weigh_held_iff pre s).trans (joined_iff s), decides_exec, settled_held_decides⟩,
    fun x q joined b r rest free early noHost => ?_⟩
  · rw [arbitrate_grants_host free waits turn, grantHost_waiting waits]
    exact ⟨rfl, rfl, rfl, rfl⟩
  · rw [arbitrate_grants_internal free waiting turn, grantInternal_slot slot]
    refine ⟨rfl, rfl, ?_, rfl, fun r' => rank_of_waiting waiting⟩
    simp [Path.slot]
  · have waits : r ∈ b.path.waiting := List.mem_of_mem_filter (early ▸ List.mem_cons_self)
    obtain ⟨a, slot⟩ := Option.isSome_iff_exists.mp (mem_waiting.mp waits)
    refine ⟨a, slot, ?_⟩
    rw [arbitrate_among free early noHost, grantInternal_slot slot]
    rfl

end Sys2Proof.Machine
end

section
/-! The restart unit: arming requests, result words and the start word, and the reading and checking of the anchor (R186,
R188, R189, R191). -/

namespace Sys2Proof.Machine

/-! ### Arming requests (R186, R188) -/

theorem ButPath.modRestart {p : Path} {b b' : Blocks} (h : ButPath p b b') (f : Restart → Restart) :
    ButPath p (b.modRestart f) (b'.modRestart f) := by
  obtain ⟨q, rfl, kept⟩ := h
  exact ⟨q, rfl, kept⟩

theorem classOf_anchor_request {b : Blocks} {v : WriteWord} (full : v.enables = 0xF#4) (nonzero : v.value ≠ 0) :
    classOf b v (.anchor, 63) = .arming := if_pos ⟨rfl, decide_eq_true ⟨full, nonzero⟩⟩

/-- The write of the request word completes with the judgement of the request. -/
theorem armingRequest_leaves {s : State} {w : CarriedWord} {v : WriteWord} (carries : CarriesWrite s w v .anchor 63)
    (full : v.enables = 0xF#4) (nonzero : v.value ≠ 0) (decision : Decision) :
    WordLeaves s w v (requestArming s.ctx (closingId v.value) s.blk) (completeWord .arming decision armingEffect s) := by
  obtain ⟨_, _, word, _⟩ := id carries
  rw [← classOf_anchor_request (b := s.blk) full nonzero]
  refine completeWord_leaves carries ?_
  rw [armingEffect, word]
  exact (wordBlocks_butPath carries).modRestart _

section Judged
variable {b : Blocks} (x : Ctx) (id : BitVec 16)

theorem requestArming_dormant (dormant : b.restart.part = .dormant) :
    requestArming x id b = b.setRestart (acceptArming false id b.restart) := by
  simp only [requestArming, Blocks.modRestart, dormant]

theorem requestArming_halted (armed : b.restart.part = .armed) (halted : x.motion.state = .halted) :
    requestArming x id b = b.setRestart (acceptArming true id b.restart) := by
  simp only [requestArming, Blocks.modRestart, armed, halted, if_true]

theorem requestArming_moving (armed : b.restart.part = .armed) (moving : x.motion.state ≠ .halted) :
    requestArming x id b = b.setRestart (addWork [.result .refusedBusy id] b.restart) := by
  simp only [requestArming, Blocks.modRestart, armed, moving, if_false]

theorem requestArming_arming {f : Bool} (arming : b.restart.part = .arming f) :
    requestArming x id b = b.setRestart (addWork [.result .refusedBusy id] b.restart) := by
  simp only [requestArming, Blocks.modRestart, arming]

end Judged

/-- Settles O55: the write completes with the judgement of the request, one row of R186 for each part state. -/
theorem armingRequestsAreJudged : Obligations.ArmingRequestsAreJudged := by
  intro s w v decision carries full nonzero
  have leaves := armingRequest_leaves carries full nonzero decision
  refine ⟨_, rfl, fun dormant => ?_, fun armed halted => ?_, fun armed moving => ?_, fun f arming => ?_⟩
  · rw [requestArming_dormant s.ctx _ dormant] at leaves
    exact leaves
  · rw [requestArming_halted s.ctx _ armed halted] at leaves
    exact leaves
  · rw [requestArming_moving s.ctx _ armed moving] at leaves
    exact leaves
  · rw [requestArming_arming s.ctx _ arming] at leaves
    exact leaves

/-! ### Result words and the start word (R188, R191) -/

theorem resultWord_id (code : ResultCode) (id : BitVec 16) : (resultWord code id).extractLsb' 0 16 = id := by
  have field : fld (resultWord code id) 0 16 = id.toNat % 2 ^ 16 := fld_pack_field (by simp [FieldApart])
  rw [fld_eq_extract] at field
  exact BitVec.eq_of_toNat_eq (field.trans (Nat.mod_eq_of_lt id.isLt))

/-- The code stands in bits 16 to 23, and the bits above are clear. -/
theorem resultWord_code (code : ResultCode) (id : BitVec 16) :
    ((resultWord code id).extractLsb' 16 16).toNat = code.code := by
  have small : code.code < 2 ^ 8 := by cases code <;> decide
  have half : code.code < 2 ^ 16 := small.trans (by decide)
  have wide : resultWord code id = pack [(0, 16, id.toNat), (16, 16, code.code)] := by
    simp only [resultWord, pack, Nat.mod_eq_of_lt small, Nat.mod_eq_of_lt half]
  have field : fld (resultWord code id) 16 16 = code.code % 2 ^ 16 := by
    rw [wide]
    exact fld_pack_field (by simp [FieldApart])
  rw [fld_eq_extract] at field
  exact field.trans (Nat.mod_eq_of_lt half)

/-- An access of the restart unit completes with a change of that unit alone. -/
theorem restartAccess_leaves {s : State} {a : Access} (carries : CarriesAccess s a) {kinds : List AccessKind}
    (kind : a.kind ∈ kinds) (decision : Decision) (f : Ctx → Restart → Restart) :
    AccessLeaves s a (s.blk.setRestart (f s.ctx s.blk.restart))
      (completeAccess kinds decision (onBlocks fun x _ b => b.modRestart (f x)) s) :=
  completeAccess_leaves carries kind ((freePort_butPath s).modRestart (f s.ctx))

/-- Settles O56: the accesses of the two kinds of work, and the end of the piece of work that an access served. -/
theorem resultWordsAreWrittenInOrder : Obligations.ResultWordsAreWrittenInOrder := by
  refine ⟨fun c r code id rest front => ⟨resultWord code id, ?_, resultWord_id code id, resultWord_code code id⟩,
    fun c r rest front => ?_, fun s a decision carries kind => ?_⟩
  · rw [restartAccess, front]
    rfl
  · rw [restartAccess, front]
    rfl
  · have leaves := restartAccess_leaves (kinds := [.resultWrite, .startWrite]) carries (by simpa using kind) decision
      fun _ => resultWritten
    refine ⟨_, rfl, fun ⟨part, arming, last⟩ => ?_, fun more => ?_⟩
    · rw [resultWritten_ended part arming last] at leaves
      exact leaves
    · rw [resultWritten_going more] at leaves
      exact leaves

/-! ### A refused arming (R189, R193, R194) -/

/-- An access whose completion changes the restart unit alone leaves that unit as the next state has it. -/
theorem accessLeaves_ofRestart {s t : State} {a : Access} {r : Restart}
    (leaves : AccessLeaves s a (s.blk.setRestart r) t) : AccessLeaves s a (s.blk.setRestart t.blk.restart) t := by
  obtain ⟨⟨cfg, motion, mem, pending, causes, track, cache, cues, stations, oven, field, plan, report, _⟩, kept⟩ := leaves
  exact ⟨⟨cfg, motion, mem, pending, causes, track, cache, cues, stations, oven, field, plan, report, rfl, fun _ => rfl⟩,
    kept⟩

/-- The restart unit after an access that changes it alone, the snapshot write apart that a grant may begin. -/
theorem restart_of_accessLeaves {s t : State} {a : Access} {r : Restart}
    (leaves : AccessLeaves s a (s.blk.setRestart r) t) : t.blk.restart = { r with writing := t.blk.restart.writing } := by
  obtain ⟨⟨_, _, _, _, _, _, _, _, _, _, _, _, _, restart, _⟩, _⟩ := leaves
  exact restart

theorem backToArmed_pending (x : Ctx) {r : Restart} (pending : r.snapshotPending = true) : backToArmed x r =
    { beginSnapshot x { r with part := .armed } with snapshotPending := false } := if_pos pending

theorem backToArmed_idle (x : Ctx) {r : Restart} (idle : r.snapshotPending = false) :
    backToArmed x r = { r with part := .armed } := if_neg (by simp [idle])

/-- A part that was ARMED is ARMED again at once. -/
theorem refused_back {x : Ctx} {code : ResultCode} {id : BitVec 16} {r : Restart}
    (back : r.part = .arming true ∨ r.part = .armed) : refused x code id r = backToArmed x (endReading code id r) := by
  rcases back with part | part <;> simp only [refused, part]

/-- A part that was DORMANT stays as it is until its result words are written (log 19). -/
theorem refused_away {x : Ctx} {code : ResultCode} {id : BitVec 16} {r : Restart}
    (away : ¬ (r.part = .arming true ∨ r.part = .armed)) : refused x code id r = endReading code id r := by
  unfold refused
  dsimp only
  split
  next => rfl
  next => rfl
  next armed => exact absurd (.inr armed) away
  next arming => exact absurd (.inl arming) away

/-- A completion that refuses the arming leaves what R189 says of a refused arming. -/
theorem armingRefused_of_leaves {s t : State} {a : Access} {x : Ctx} {code : ResultCode} {id : BitVec 16}
    (leaves : AccessLeaves s a (refuseArming x code id s.blk) t) : ArmingRefused code id s a t := by
  have restart := restart_of_accessLeaves (r := refused x code id s.blk.restart) leaves
  refine ⟨accessLeaves_ofRestart (r := refused x code id s.blk.restart) leaves, ?_⟩
  by_cases back : s.blk.restart.part = .arming true ∨ s.blk.restart.part = .armed
  · have part : (if s.blk.restart.part = .arming true then .armed else s.blk.restart.part) = PartState.armed := by
      rcases back with part | part <;> rw [part] <;> rfl
    rw [refused_back back] at restart
    cases pending : s.blk.restart.snapshotPending with
    | true =>
      rw [backToArmed_pending x (r := endReading code id s.blk.restart) pending] at restart
      rw [restart, part]
      exact ⟨rfl, rfl, rfl, fun _ _ => ⟨by simp [beginSnapshot, endReading, addWork], rfl⟩,
        fun other => absurd back (other.resolve_right nofun)⟩
    | false =>
      rw [backToArmed_idle x (r := endReading code id s.blk.restart) pending] at restart
      rw [restart, part]
      exact ⟨rfl, rfl, rfl, nofun, fun _ => ⟨rfl, pending⟩⟩
  · have part : (if s.blk.restart.part = .arming true then .armed else s.blk.restart.part) = s.blk.restart.part :=
      if_neg fun arming => back (.inl arming)
    rw [refused_away back] at restart
    rw [restart, part]
    exact ⟨rfl, rfl, rfl, fun here => absurd here back, fun _ => ⟨rfl, rfl⟩⟩

/-! ### The anchor (R189) -/

section Checks
variable {ws : List Word}

theorem anchorFault_cookie (bad : wordAt ws 0 ≠ Config.cookie) : anchorFault ws = some .badCookie := if_pos bad

/-- Past the cookie the closing word is checked. -/
theorem anchorFault_closing (cookie : wordAt ws 0 = Config.cookie) (bad : validClosing (wordAt ws 63) = false) :
    anchorFault ws = some .badCheck := by simp [anchorFault, cookie, bad]

/-- Past the closing word the windows are checked, then the geometry and the parameters, with one code. -/
theorem anchorFault_closed (cookie : wordAt ws 0 = Config.cookie) (valid : validClosing (wordAt ws 63) = true) :
    anchorFault ws = if windowsOk (parseAnchor ws) then
      if geometryOk (parseAnchor ws) && parametersOk (parseAnchor ws) then none else some .badGeometry
    else some .badWindows := by
  unfold anchorFault
  rw [if_neg (not_not.mpr cookie), valid]
  cases windowsOk (parseAnchor ws) with
  | false => rfl
  | true =>
    cases geometryOk (parseAnchor ws) with
    | false => rfl
    | true => cases parametersOk (parseAnchor ws) <;> rfl

end Checks

section Anchor
variable {b : Blocks} {y : Arming} (held : b.restart.arming = some y) (x : Ctx) {ws : List Word}
include held

theorem modArming_held (f : Arming → Arming) :
    modArming f b = b.setRestart { b.restart with arming := some (f y) } := by
  rw [modArming_eq held]
  rfl

theorem anchorRead_more (more : (y.anchor ++ ws).length < 64) :
    anchorRead x ws b = modArming (fun y => { y with anchor := y.anchor ++ ws }) b := by
  simp only [anchorRead, held, more, if_true, modArming_held held]

theorem anchorRead_fails (last : 64 ≤ (y.anchor ++ ws).length) {code : ResultCode}
    (fault : anchorFault (y.anchor ++ ws) = some code) : anchorRead x ws b = refuseArming x code y.id b := by
  simp only [anchorRead, held, Nat.not_lt.mpr last, if_false, fault]

theorem anchorRead_passes (last : 64 ≤ (y.anchor ++ ws).length) (sound : anchorFault (y.anchor ++ ws) = none) :
    anchorRead x ws b = modArming (fun y => { y with anchor := y.anchor ++ ws, phase := .mount }) b := by
  simp only [anchorRead, held, Nat.not_lt.mpr last, if_false, sound, modArming_held held]

end Anchor

/-- The reading of the anchor is work of the restart unit, and reads nothing of the path unit. -/
theorem ButPath.anchorRead {p : Path} {b b' : Blocks} (h : ButPath p b b') (x : Ctx) (ws : List Word) :
    ButPath p (Machine.anchorRead x ws b) (Machine.anchorRead x ws b') := by
  obtain ⟨q, rfl, kept⟩ := h
  refine ⟨q, ?_, kept⟩
  simp only [Machine.anchorRead, Blocks.setPath_restart]
  split
  · rfl
  · split
    · rfl
    · split <;> rfl

/-- Settles O57: a burst of the anchor completes with the reading of it, and the checks run in the order of R189. -/
theorem anchorIsReadAndChecked : Obligations.AnchorIsReadAndChecked := by
  refine ⟨fun s a decision y carries kind held => ?_, fun ws => ⟨anchorFault_cookie, anchorFault_closing,
    fun cookie valid => ?_⟩⟩
  · have leaves : AccessLeaves s a (anchorRead s.ctx (readBy s a) s.blk) _ :=
      completeAccess_leaves carries (kinds := [.anchorRead]) (by simp [kind]) (decision := decision)
        ((freePort_butPath s).anchorRead ..)
    refine ⟨_, rfl, fun more => ?_, fun last code fault => ?_, fun last sound => ?_⟩
    · rw [anchorRead_more held s.ctx more, modArming_held held] at leaves
      exact leaves
    · rw [anchorRead_fails held s.ctx last fault] at leaves
      exact armingRefused_of_leaves leaves
    · rw [anchorRead_passes held s.ctx last sound, modArming_held held] at leaves
      exact leaves
  · rw [anchorFault_closed cookie valid]
    refine ⟨fun bad => by rw [bad]; rfl, fun windows bad => ?_, fun windows geometry parameters => ?_⟩
    · rcases bad with bad | bad <;> simp [windows, bad]
    · simp [windows, geometry, parameters]

end Sys2Proof.Machine
end

section
/-! The outcome map read after a warm arming, and the completions of a snapshot write's accesses (R192, R193, R196). -/

namespace Sys2Proof.Machine

/-! ### The outcome map (R196) -/

/-- The reading of the outcome map is work of the report and the restart unit, and reads nothing of the path unit. -/
theorem ButPath.mapRead {p : Path} {b b' : Blocks} (h : ButPath p b b') (x : Ctx) (ws : List Word) :
    ButPath p (Machine.mapRead x ws b) (Machine.mapRead x ws b') := by
  obtain ⟨q, rfl, kept⟩ := h
  refine ⟨q, ?_, kept⟩
  simp only [Machine.mapRead, Blocks.setPath_restart]
  split
  · rfl
  · split <;> rfl

section Map
variable {b : Blocks} {k : Nat} {id : BitVec 16} (next : b.restart.mapNext = some (k, id)) {x : Ctx}
include next

theorem mapRead_more (ws : List Word) (more : k + 1 < x.cfg.outcomeSlots) : mapRead x ws b =
    (b.setReport { b.report with full := b.report.full.set k (decide (wordAt ws 0 ≠ 0)) }).setRestart
      { b.restart with mapNext := some (k + 1, id) } := by
  simp only [mapRead, next, more, if_true]
  rfl

theorem mapRead_last (ws : List Word) (last : x.cfg.outcomeSlots ≤ k + 1) : mapRead x ws b =
    (b.setReport { b.report with full := b.report.full.set k (decide (wordAt ws 0 ≠ 0)) }).setRestart
      (mapDone id b.restart) := by
  simp only [mapRead, next, Nat.not_lt.mpr last, if_false]
  rfl

end Map

theorem armedWarm_mem_mapDone (id : BitVec 16) (r : Restart) : Work.result .armedWarm id ∈ (mapDone id r).work := by
  simp [mapDone]

/-! ### The snapshot write (R192, R193) -/

/-- The restart unit as the closing word of a snapshot write ends its piece of work. -/
def writeEnded (g : BitVec 16) (r : Restart) : Restart :=
  { r with work := r.work.tail, writing := none, generation := g }

section Closing
variable {r : Restart} {g : BitVec 16} {rest : List Burst} (writing : r.writing = some ⟨g, rest⟩) (x : Ctx)
include writing

theorem snapshotClosed_again (armed : r.part = .armed) (pending : r.snapshotPending = true) :
    snapshotClosed x r = { beginSnapshot x (writeEnded g r) with snapshotPending := false } := by
  simp only [snapshotClosed, writing]
  exact if_pos ⟨armed, pending⟩

theorem snapshotClosed_done (done : r.snapshotPending = false ∨ r.part ≠ .armed) :
    snapshotClosed x r = writeEnded g r := by
  simp only [snapshotClosed, writing]
  refine if_neg fun ⟨armed, pending⟩ => ?_
  rcases done with idle | away
  · exact absurd (idle.symm.trans pending) nofun
  · exact away armed

/-- Either way the write has ended with its generation, and the part state stays. -/
theorem snapshotClosed_ends : (snapshotClosed x r).generation = g ∧ (snapshotClosed x r).part = r.part := by
  by_cases again : r.part = .armed ∧ r.snapshotPending = true
  · rw [snapshotClosed_again writing x again.1 again.2]
    exact ⟨rfl, rfl⟩
  · rw [snapshotClosed_done writing x (by simpa [or_iff_not_imp_right] using again)]
    exact ⟨rfl, rfl⟩

end Closing

/-- Settles O60: a read of the outcome map, a burst of a snapshot write, and its closing word. -/
theorem outcomeMapAndSnapshotWrites : Obligations.OutcomeMapAndSnapshotWrites := by
  refine ⟨fun s a decision k id carries kind next => ?_, fun s a decision g u rest carries kind writing => ?_,
    fun s a decision g rest carries kind writing => ?_⟩
  · have leaves : AccessLeaves s a (mapRead s.ctx (readBy s a) s.blk) _ :=
      completeAccess_leaves carries (kinds := [.mapRead]) (by simp [kind]) (decision := decision)
        ((freePort_butPath s).mapRead ..)
    refine ⟨_, rfl, ?_⟩
    rcases Nat.lt_or_ge (k + 1) s.cfg.outcomeSlots with more | last
    · rw [mapRead_more next _ more] at leaves
      obtain ⟨⟨_, _, mem, _, causes, track, _, _, _, _, _, _, ⟨report, _⟩, restart, _⟩, _⟩ := leaves
      rw [restart, report]
      exact ⟨mem, rfl, track, causes, fun _ => ⟨rfl, rfl⟩, fun last => absurd more (Nat.not_lt.mpr last)⟩
    · rw [mapRead_last next _ last] at leaves
      obtain ⟨⟨_, _, mem, _, causes, track, _, _, _, _, _, _, ⟨report, _⟩, restart, _⟩, _⟩ := leaves
      rw [restart, report]
      exact ⟨mem, rfl, track, causes, fun more => absurd more (Nat.not_lt.mpr last),
        fun _ => ⟨rfl, armedWarm_mem_mapDone ..⟩⟩
  · have leaves := restartAccess_leaves (kinds := [.snapshotWrite]) carries (by simp [kind]) decision
      fun _ => snapshotBurstDone
    have done : snapshotBurstDone s.blk.restart = { s.blk.restart with writing := some ⟨g, rest⟩ } := by
      rw [snapshotBurstDone, writing]
      rfl
    rw [done] at leaves
    exact ⟨_, rfl, leaves⟩
  · have leaves := restartAccess_leaves (kinds := [.snapshotClosing]) carries (by simp [kind]) decision snapshotClosed
    have restart := restart_of_accessLeaves leaves
    obtain ⟨generation, part⟩ := snapshotClosed_ends writing s.ctx
    obtain ⟨⟨_, _, mem, _, causes, track, _⟩, _⟩ := leaves
    refine ⟨_, rfl, mem, ?_⟩
    rw [restart]
    refine ⟨generation, part, track, causes, fun done => ?_, fun pending armed => ?_⟩
    · rw [snapshotClosed_done writing s.ctx done]
      exact ⟨rfl, rfl⟩
    · rw [snapshotClosed_again writing s.ctx armed pending]
      exact ⟨rfl, rfl⟩

end Sys2Proof.Machine
end

section
/-! The mount window's check, and the state of a cold arming (R189, R190, R191, R194). -/

namespace Sys2Proof.Machine

/-! ### An access whose effect reaches beyond the blocks (R173) -/

/-- The state in which a requester takes the data of its access: memory holds the access's words, and the port is free. -/
def returned (s : State) (a : Access) : State := (s.setMem (s.mem.carry a)).setBlk (freePort s.blk)

section Returned
variable {s : State} {a : Access} (carries : CarriesAccess s a) {kinds : List AccessKind} (kind : a.kind ∈ kinds)
  (decision : Decision) {effect : List Word → State → State}
include carries kind

theorem completeAccess_returned : completeAccess kinds decision effect s =
    (effect (readBy s a) (returned s a)).decided s.blk.path.requests decision := completeAccess_eq carries kind

/-- An effect that turns out to be one on the blocks alone. -/
theorem completeAccess_leaves_of_effect {b b' : Blocks}
    (gives : effect (readBy s a) (returned s a) = (returned s a).setBlk b') (work : ButPath s.blk.path b b') :
    AccessLeaves s a b (completeAccess kinds decision effect s) := by
  have same : completeAccess kinds decision effect s = completeAccess kinds decision (onBlocks fun _ _ _ => b') s := by
    rw [completeAccess_returned carries kind, completeAccess_returned carries kind, gives]
    rfl
  rw [same]
  exact completeAccess_leaves carries kind work

end Returned

/-! ### A link cycle begins (R143, R144) -/

/-- The module chosen for an exchange is configured. -/
theorem configured_of_chosen {x : Ctx} {b : Blocks} {last : Option (Fin 24)} {a : Fin 24}
    (chosen : chooseModule x b last = some a) : configured x b a = true := by
  have found := List.find?_some chosen
  rw [Bool.and_eq_true] at found
  exact found.1

/-- The field line as a cycle begins, with the first exchange, if any. -/
def cycleField (x : Ctx) (b : Blocks) (e : Option Exchange) : FieldLine :=
  { b.field with
    cycles := b.field.cycles + 1
    cycleTimer := some x.cfg.cyclePeriod
    phase := phasesInForce b.stations
    exchange := e
    lastDuration := if e.isSome then b.field.lastDuration else 0 }

/-- A cycle begins with no exchange, or with the wait for quiet of one with a configured module. -/
theorem startCycle_begins (x : Ctx) (b : Blocks) : ∃ e, startCycle x b = b.setField (cycleField x b e) ∧
    ∀ e', e = some e' → e'.phase = .quiet ∧ configured x b e'.module = true := by
  unfold startCycle
  dsimp only
  split
  next a chosen =>
    refine ⟨some ⟨a, .quiet, false⟩, rfl, fun e' same => ?_⟩
    cases same
    exact ⟨rfl, configured_of_chosen chosen⟩
  next => exact ⟨none, rfl, nofun⟩

/-! ### The end of a cold arming's step -/

/-- No take begins of an empty plan ring. -/
theorem planFollows_reset {t : Plan} (follows : PlanFollows .reset t) : t = .reset := by
  rcases follows with same | ⟨_, posted, _⟩
  · exact same
  · exact absurd posted (by decide)

theorem startRecord_empty {c : Anchor} {b : Blocks} (empty : b.report.queue = []) : startRecord c b = b := by
  unfold startRecord
  split
  next queued _ => rw [empty] at queued; cases queued
  next => rfl

/-- A rewrite owed begins at the end of a step (R166). -/
theorem settle_report_rewrite {b : Blocks} (live : b.live = true) (owed : b.report.rewriteOwed = true)
    (idle : b.report.rewrite = none) (unfrozen : b.path.freeze = false) (empty : b.report.queue = []) (x : Ctx)
    (w : Weigh) : ∃ image, (settle x w b).report =
      { b.report with rewriteOwed := false, rewriteNumber := b.report.rewriteNumber + 1, rewrite := some image } := by
  have report : (pumpPlan x (pumpCache x (pumpRestart x b))).report = b.report := by
    simp [pumpPlan, pumpCache, pumpRestart]
  have restart : (pumpPlan x (pumpCache x (pumpRestart x b))).restart = b.restart := by
    simp [pumpPlan, pumpCache, pumpRestart]
  have freeze : (pumpPlan x (pumpCache x (pumpRestart x b))).path.freeze = b.path.freeze := by
    simp [pumpPlan, pumpCache, pumpRestart]
  rw [settle_report]
  generalize pumpPlan x (pumpCache x (pumpRestart x b)) = c at report restart freeze
  have live' : c.live = true := by rw [Blocks.live, restart]; exact live
  rw [startRecord_empty (by rw [report, empty]), startRewrite,
    if_pos ⟨live', by rw [report, owed], by rw [report, idle], by rw [freeze, unfrozen]; nofun⟩, ← report]
  exact ⟨_, rfl⟩

/-! ### The state of a cold arming (R190, R191) -/

/-- The blocks at a cold arming result with the first STARVED BLANK, before the link cycle begins. -/
def coldStart (code : ResultCode) (y : Arming) (b : Blocks) : Blocks :=
  (coldBlocks (parseAnchor y.anchor) code y b).modTrack (joinTrack 0 (Segment.blank 0))

/-- What the blocks take up at a cold arming result. -/
def coldCtx (y : Arming) (s : State) : Ctx := ⟨parseAnchor y.anchor, s.motion.coldArmed⟩

/-- The blocks at a cold arming result, its first link cycle begun. -/
theorem coldResult_blk (code : ResultCode) (y : Arming) (s : State) :
    ∃ e, (coldResult code y s).blk =
        (coldStart code y s.blk).setField (cycleField (coldCtx y s) (coldStart code y s.blk) e) ∧
      ∀ e', e = some e' → e'.phase = .quiet ∧ configured (coldCtx y s) (coldStart code y s.blk) e'.module = true :=
  startCycle_begins (coldCtx y s) (coldStart code y s.blk)

theorem armStations_image (ws : List Word) (s : Stations) (i : Fin 96) : (armStations ws s).image[i] = wordAt ws i :=
  tabulate_get _ i

theorem armStations_station (ws : List Word) (s : Stations) (k : Fin 16) :
    (armStations ws s).station[k] = armedStationState (mountRecord ws k) := tabulate_get _ k

theorem armOven_zone (c : Anchor) (z : Fin 8) : (armOven c .reset).zone[z] =
    ⟨.before, none, if z.val < c.zoneCount then c.standbySetpoint else 0, .held, 0, .run, 0⟩ := by
  have taken : (armOven c .reset).zone[z] =
      if listed c z then ⟨.before, none, c.standbySetpoint, .held, 0, .run, 0⟩ else Oven.reset.zone[z] := tabulate_get _ z
  rw [taken]
  by_cases listed : z.val < c.zoneCount
  · simp [Machine.listed, listed]
  · simp [Machine.listed, listed, Oven.reset]

/-- What follows from a cold arming result, its rewrite begun, is the state of a cold arming. -/
theorem coldState_of_follows {code : ResultCode} {y : Arming} {s t : State}
    (follows : FollowsFrom (coldResult code y s) t) {image : List Burst}
    (begun : t.blk.report = { (coldResult code y s).blk.report with
      rewriteOwed := false, rewriteNumber := s.blk.report.rewriteNumber + 1, rewrite := some image }) :
    ColdState code y s t := by
  obtain ⟨e, blk, chosen⟩ := coldResult_blk code y s
  obtain ⟨⟨cfg, motion, _, _, causes, track, cache, cues, stations, oven, field, plan, _, restart, _⟩,
    freeze, dropped, _⟩ := follows
  rw [blk] at causes track cache cues stations oven field plan restart freeze dropped begun
  have cfg' : t.cfg = parseAnchor y.anchor := cfg
  refine ⟨cfg, motion, fun k => ?_, track, planFollows_reset plan, cache, cues, ⟨fun i => ?_, fun k => ?_, ?_⟩,
    ⟨fun z => ?_, ?_⟩, ⟨fun m => ?_, ?_, fun k => ?_, fun e' exchange => ?_⟩, ⟨image, ?_⟩, freeze, dropped, ?_⟩
  · rw [causes]
    exact CauseSet.reset_clear k
  · rw [stations]
    exact armStations_image ..
  · rw [stations]
    exact armStations_station ..
  · rw [stations]
    rfl
  · rw [oven, cfg']
    exact armOven_zone ..
  · rw [oven]
    rfl
  · rw [field]
    exact Vector.getElem_replicate ..
  · rw [field, cfg']
    cases e <;> rfl
  · rw [field]
    exact (tabulate_get _ k).trans (congrArg (·.mount.phaseData) (armStations_station ..))
  · rw [field] at exchange
    have ctx : t.ctx = coldCtx y s := by rw [State.ctx, cfg, motion]; rfl
    have present : configured t.ctx t.blk e'.module = configured (coldCtx y s) (coldStart code y s.blk) e'.module := by
      simp only [configured, ctx, stations, Blocks.setField_stations]
    rw [present]
    exact chosen e' exchange
  · rw [begun, cfg']
    rfl
  · rw [restart, cfg']
    rfl

/-- The step of a cold arming result leaves the state of a cold arming: the rewrite owed begins with it. -/
theorem coldResult_coldState (code : ResultCode) (y : Arming) (s : State) (pre : Requests) (decision : Decision) :
    ColdState code y s ((coldResult code y s).decided pre decision) := by
  obtain ⟨e, blk, _⟩ := coldResult_blk code y s
  obtain ⟨image, begun⟩ := settle_report_rewrite (b := (coldResult code y s).blk) (by rw [blk]; rfl) (by rw [blk]; rfl)
    (by rw [blk]; rfl) (by rw [blk]; rfl) (by rw [blk]; rfl) (coldResult code y s).ctx
    (Weigh.of pre (coldResult code y s).joined decision)
  refine coldState_of_follows (image := image) (decided_follows ..) (begun.trans ?_)
  rw [blk]
  rfl

/-! ### The mount window (R189, R191, R194) -/

section Window
variable {s : State} {y : Arming}

theorem mountRead_more {ws : List Word} (held : s.blk.restart.arming = some y) (more : (y.mount ++ ws).length < 96) :
    mountRead ws s = s.setBlk (modArming (fun _ => { y with mount := y.mount ++ ws }) s.blk) := by
  simp only [mountRead, held, more, if_true]

theorem mountRead_last {ws : List Word} (held : s.blk.restart.arming = some y) (last : 96 ≤ (y.mount ++ ws).length) :
    mountRead ws s = mountDone { y with mount := y.mount ++ ws } s := by
  simp only [mountRead, held, Nat.not_lt.mpr last, if_false]

theorem mountDone_bad (bad : mountOk (parseAnchor y.anchor) y.mount = false) :
    mountDone y s = s.setBlk (refuseArming s.ctx .badMount y.id s.blk) := by
  rw [mountDone, bad]
  rfl

theorem mountDone_cold (sound : mountOk (parseAnchor y.anchor) y.mount = true)
    (cold : wordAt y.anchor 61 ≠ Config.warmWord) : mountDone y s = coldResult .armedCold y s := by
  simp [mountDone, sound, isWarm, cold]

/-- A WARM start word asks for a halted line. -/
theorem mountDone_warm (sound : mountOk (parseAnchor y.anchor) y.mount = true)
    (warm : wordAt y.anchor 61 = Config.warmWord) : mountDone y s =
      if s.motion.state ≠ .halted then s.setBlk (refuseArming s.ctx .refusedBusy y.id s.blk)
      else s.setBlk ((modArming (fun _ => { y with phase := .snapshot }) s.blk).modRestart fun r =>
        { r with moved := false }) := by
  simp [mountDone, sound, isWarm, warm]

end Window

/-- Settles O58: a burst of the mount window completes with its reading, the last one with the check of the window and of
the start word. -/
theorem mountWindowDecidesTheArming : Obligations.MountWindowDecidesTheArming := by
  intro s a decision y carries kind held
  have ofKind : a.kind ∈ [AccessKind.mountRead] := by simp [kind]
  have held' : (returned s a).blk.restart.arming = some y := held
  have free := freePort_butPath s
  have step := completeAccess_returned carries ofKind decision (effect := mountRead)
  have stored := completeAccess_mem carries decision
  rw [kind] at stored
  refine ⟨_, rfl, stored.1, fun more => ?_, fun last bad => ?_, fun last sound cold => ?_, fun last sound warm moving => ?_,
    fun last sound warm halted => ?_⟩
  · have leaves := completeAccess_leaves_of_effect carries ofKind decision (mountRead_more held' more)
      (free.modRestart _)
    rw [← modArming, modArming_held held] at leaves
    exact leaves
  · exact armingRefused_of_leaves (completeAccess_leaves_of_effect carries ofKind decision
      ((mountRead_last held' last).trans (mountDone_bad bad)) (free.modRestart _))
  · rw [mountRead_last held' last, mountDone_cold sound cold] at step
    rw [step]
    exact coldResult_coldState .armedCold _ (returned s a) ..
  · exact armingRefused_of_leaves (completeAccess_leaves_of_effect carries ofKind decision
      ((mountRead_last held' last).trans ((mountDone_warm sound warm).trans (if_pos moving))) (free.modRestart _))
  · have leaves := completeAccess_leaves_of_effect carries ofKind decision
      ((mountRead_last held' last).trans ((mountDone_warm sound warm).trans (if_neg (not_not.mpr halted))))
      ((free.modRestart _).modRestart _)
    rw [← modArming, modArming_held held] at leaves
    exact leaves

end Sys2Proof.Machine
end

section
/-! The snapshot read at a warm arming, and what a valid one restores (R194, R195, R196). -/

namespace Sys2Proof.Machine

/-! ### Work on restored blocks -/

/-- What a warm arming's placing and claiming may do to the blocks restored from a snapshot: each segment keeps its shape,
the staged order and the owed rewrite may change, the rest of the track, the plan reader, the report unit and the restart
unit stays. -/
structure KeepsRestored (a b : Blocks) : Prop where
  track : ∃ m : Segment → Segment, (∀ g, segmentShape (m g) = segmentShape g) ∧
    b.track = { a.track with segs := a.track.segs.map m }
  plan : b.plan = { a.plan with staged := b.plan.staged }
  report : b.report = { a.report with rewriteOwed := b.report.rewriteOwed }
  restart : b.restart = a.restart

theorem KeepsRestored.refl (b : Blocks) : KeepsRestored b b := ⟨⟨id, fun _ => rfl, by simp⟩, rfl, rfl, rfl⟩

theorem KeepsRestored.trans {a b c : Blocks} (h : KeepsRestored a b) (k : KeepsRestored b c) : KeepsRestored a c where
  track := by
    obtain ⟨m, shape, same⟩ := h.track
    obtain ⟨n, shape', same'⟩ := k.track
    exact ⟨n ∘ m, fun g => (shape' (m g)).trans (shape g), by rw [same', same]; simp⟩
  plan := by rw [k.plan, h.plan]
  report := by rw [k.report, h.report]
  restart := k.restart.trans h.restart

theorem foldl_keepsRestored {ι : Type} {f : Blocks → ι → Blocks} (hf : ∀ b i, KeepsRestored b (f b i)) (l : List ι) :
    ∀ b : Blocks, KeepsRestored b (l.foldl f b) := by
  induction l with
  | nil => exact .refl
  | cons i l ih => exact fun b => (hf b i).trans (ih _)

theorem ite_keepsRestored {a b c : Blocks} {p : Prop} [Decidable p] (hb : KeepsRestored a b) (hc : KeepsRestored a c) :
    KeepsRestored a (if p then b else c) := by
  split
  · exact hb
  · exact hc

/-- Work of the web side that leaves the restart unit. -/
theorem WebWork.keepsRestored {a b : Blocks} (h : WebWork a b) (restart : b.restart = a.restart) : KeepsRestored a b where
  track := by
    obtain ⟨m, carried, same⟩ := h.track
    exact ⟨m, fun g => (carried g).fields.shape, same⟩
  plan := by rw [h.plan]
  report := h.report
  restart := restart

theorem raise_keepsRestored (k : CauseKind) (source : Nat) (b : Blocks) : KeepsRestored b (raise k source b) :=
  (raise_web (.refl b)).keepsRestored (raiseAt_restart ..)

theorem giveVerdict_restart (source q rel : Nat) (v : Verdict) (b : Blocks) :
    (giveVerdict source q rel v b).restart = b.restart := by
  rcases giveVerdict_cases source q rel v b with plain | ⟨k, _, raised⟩
  · rw [plain]
    rfl
  · rw [raised]
    exact raiseAt_restart ..

theorem placeProbe_restart (x : Ctx) (b : Blocks) (q rel : Nat) : (placeProbe x b q rel).restart = b.restart := by
  unfold placeProbe
  split
  · rfl
  · split
    · rfl
    · dsimp only
      split
      · exact giveVerdict_restart ..
      · rfl

theorem startCycle_restart (x : Ctx) (b : Blocks) : (startCycle x b).restart = b.restart := by
  obtain ⟨e, started, _⟩ := startCycle_begins x b
  rw [started]
  rfl

section Placed
variable (x : Ctx) (b : Blocks)

theorem placeStations_keepsRestored : KeepsRestored b (placeStations x b) :=
  foldl_keepsRestored (by exact fun b k => (modStation_web (.refl b)).keepsRestored rfl) _ b

theorem restoreProbes_keepsRestored : KeepsRestored b (restoreProbes x b) :=
  foldl_keepsRestored (by
    exact fun b i => (modSeg_web (placeProbe_web (.refl b) x)).keepsRestored (placeProbe_restart x b i.1 i.2)) _ b

theorem raiseBacklog_keepsRestored : KeepsRestored b (raiseBacklog b) :=
  ite_keepsRestored (raise_keepsRestored ..) (.refl b)

theorem startCycle_keepsRestored : KeepsRestored b (startCycle x b) :=
  (startCycle_web (.refl b) x).keepsRestored (startCycle_restart x b)

end Placed

/-! ### Restore claims (R79, R196) -/

theorem tellStaged_keepsRestored (r : Answer) (b : Blocks) : KeepsRestored b (tellStaged r b) :=
  ⟨(KeepsRestored.refl b).track, rfl, rfl, rfl⟩

theorem setCache_keepsRestored (b : Blocks) (c : Cache) : KeepsRestored b (b.setCache c) :=
  ⟨(KeepsRestored.refl b).track, rfl, rfl, rfl⟩

theorem lookupStaged_keepsRestored (n : Nat) (b : Blocks) : KeepsRestored b (lookupStaged n b) := by
  unfold lookupStaged
  split
  · exact ((setCache_keepsRestored b _).trans (tellStaged_keepsRestored ..)).trans (raise_keepsRestored ..)
  · exact (setCache_keepsRestored b _).trans (tellStaged_keepsRestored ..)

theorem mapSegs_keepsRestored (b : Blocks) {m : Segment → Segment} (shape : ∀ g, segmentShape (m g) = segmentShape g) :
    KeepsRestored b (b.modTrack fun t => { t with segs := t.segs.map m }) := ⟨⟨m, shape, rfl⟩, rfl, rfl, rfl⟩

theorem loseNumber_keepsRestored (n : Nat) (b : Blocks) : KeepsRestored b (b.modTrack (loseNumber n)) :=
  mapSegs_keepsRestored b fun g => by split <;> rfl

theorem restoreClaim_keepsRestored (b : Blocks) (n : Nat) : KeepsRestored b (restoreClaim b n) := by
  unfold restoreClaim
  dsimp only
  split
  · exact ite_keepsRestored ((loseNumber_keepsRestored n b).trans (lookupStaged_keepsRestored ..))
      (loseNumber_keepsRestored n b)
  · have claimed (c : Cache) (f : SettingRef → SettingRef) : KeepsRestored b ((b.setCache c).modTrack fun t =>
        { t with segs := t.segs.map (mapRefs f) }) :=
      (setCache_keepsRestored b c).trans (mapSegs_keepsRestored _ fun _ => rfl)
    exact ite_keepsRestored ((claimed ..).trans (tellStaged_keepsRestored ..)) (claimed ..)

theorem restoreClaims_keepsRestored (b : Blocks) : KeepsRestored b (restoreClaims b) := by
  have claimed := foldl_keepsRestored restoreClaim_keepsRestored (restoredNumbers b.track.segs) b
  unfold restoreClaims
  dsimp only
  split
  · exact ite_keepsRestored claimed (claimed.trans (lookupStaged_keepsRestored ..))
  · exact claimed

/-! ### A warm arming's result (R195) -/

theorem warmed_keepsRestored (x : Ctx) (b : Blocks) :
    KeepsRestored b (startCycle x (restoreClaims (raiseBacklog (restoreProbes x (placeStations x b))))) :=
  ((((placeStations_keepsRestored x b).trans (restoreProbes_keepsRestored x _)).trans (raiseBacklog_keepsRestored _)).trans
    (restoreClaims_keepsRestored _)).trans (startCycle_keepsRestored x _)

/-- A warm arming result keeps what it restores, through the placing, the claims and the first link cycle. -/
theorem warmResult_keepsRestored (d : SnapshotData) (y : Arming) (s : State) :
    KeepsRestored (warmBlocks (warmCtx d y s) d y s.blk) (warmResult d y s).blk := by
  rw [warmResult_eq]
  dsimp only
  rw [State.setBlk_blk]
  exact warmed_keepsRestored ..

/-- What a warm arming with the data of a snapshot leaves (R195, R196): the anchor read in force, P and H at the corrected
position, the track's segments by their shapes and the rest of the track, the plan ring, an empty cue queue, the
retirement queue and the write index, the generation, and the outcome map to be read from its first slot. -/
structure WarmState (d : SnapshotData) (y : Arming) (s t : State) : Prop where
  cfg : t.cfg = parseAnchor y.anchor
  motion : t.motion = s.motion.warmArmed ((d.h : Int) + (parseAnchor y.anchor).restartCorrection).toNat
  part : t.blk.restart.part = .armed
  shapes : t.blk.track.segs.map segmentShape = d.segs.map segmentShape
  track : t.blk.track = { s.blk.track.warmArmed (parseAnchor y.anchor) d with segs := t.blk.track.segs }
  postIndex : t.blk.plan.postIndex = d.postIndex
  takeIndex : t.blk.plan.takeIndex = d.takeIndex
  posted : t.blk.plan.posted = d.posted
  cues : t.blk.cues.queue = []
  queue : t.blk.report.queue = d.queue
  writeIndex : t.blk.report.writeIndex = d.writeIndex
  generation : t.blk.restart.generation = d.generation
  mapNext : t.blk.restart.mapNext = some (0, y.id)

theorem warmState_of_follows {d : SnapshotData} {y : Arming} {s t : State}
    (follows : FollowsFrom (warmResult d y s) t) : WarmState d y s t := by
  obtain ⟨⟨cfg, motion, _, _, _, track, _, cues, _, _, _, plan, ⟨report, _⟩, restart, _⟩, _⟩ := follows
  obtain ⟨⟨m, shape, segs⟩, plan', report', restart'⟩ := warmResult_keepsRestored d y s
  obtain ⟨posted, postIndex, takeIndex⟩ := ring_of_planFollows plan
  rw [plan'] at posted postIndex takeIndex
  rw [restart'] at restart
  rw [report'] at report
  rw [segs] at track
  have kept (l : List Segment) : (l.map m).map segmentShape = l.map segmentShape := by simp [shape]
  exact {
    cfg := cfg
    motion := motion
    part := by rw [restart]; rfl
    shapes := by
      rw [track]
      refine (kept _).trans ?_
      show (d.segs.map _).map segmentShape = _
      rw [List.map_map]
      rfl
    track := by rw [track]; rfl
    postIndex := postIndex
    takeIndex := takeIndex
    posted := posted
    cues := by rw [cues]; exact warmResult_queue ..
    queue := by rw [report]; rfl
    writeIndex := by rw [report]; rfl
    generation := by rw [restart]; rfl
    mapNext := by rw [restart]; rfl }

/-! ### The snapshot (R194) -/

/-- The position that a warm arming takes up is the snapshot's H with the anchor's correction. -/
theorem corrected_of_snapshotValid {c : Anchor} {ws : List Word} (valid : snapshotValid c ws = true) :
    ((((decodeSnapshot ws).h : Int) + c.restartCorrection).toNat : Int) = (decodeSnapshot ws).h + c.restartCorrection := by
  simp only [snapshotValid, Bool.and_eq_true, decide_eq_true_eq] at valid
  omega

section Snapshot
variable {s : State} {y : Arming} (held : s.blk.restart.arming = some y) {ws : List Word}
include held

theorem snapshotRead_more (more : ¬ snapshotDone (y.snapshot ++ ws) = true) :
    snapshotRead ws s = s.setBlk (modArming (fun _ => { y with snapshot := y.snapshot ++ ws }) s.blk) := by
  simp [snapshotRead, held, more]

section Last
variable (last : snapshotDone (y.snapshot ++ ws) = true)
include last

/-- A unit event since the reading began is judged first (log 21). -/
theorem snapshotRead_moved (moved : s.blk.restart.moved = true) :
    snapshotRead ws s = s.setBlk (refuseArming s.ctx .refusedBusy y.id s.blk) := by
  simp [snapshotRead, held, last, moved]

theorem snapshotRead_still (still : s.blk.restart.moved = false) : snapshotRead ws s =
    if snapshotValid (parseAnchor y.anchor) (y.snapshot ++ ws) then
      warmResult (decodeSnapshot (y.snapshot ++ ws)) { y with snapshot := y.snapshot ++ ws } s
    else coldResult .armedColdTrackLost { y with snapshot := y.snapshot ++ ws } s := by
  simp [snapshotRead, held, last, still]

end Last

end Snapshot

/-- Settles O59: a read of the snapshot completes with its reading, the last one with the judgement of the moved marker and
of the snapshot's validity. -/
theorem snapshotDecidesTheWarmArming : Obligations.SnapshotDecidesTheWarmArming := by
  intro s a decision y carries kind held
  have ofKind : a.kind ∈ [AccessKind.snapshotRead] := by simp [kind]
  have held' : (returned s a).blk.restart.arming = some y := held
  have free := freePort_butPath s
  have step := completeAccess_returned carries ofKind decision (effect := snapshotRead)
  have stored := completeAccess_mem carries decision
  rw [kind] at stored
  refine ⟨_, rfl, stored.1, fun more => ?_, fun last moved => ?_, fun last still invalid => ?_,
    fun last still valid => ?_⟩
  · have leaves := completeAccess_leaves_of_effect carries ofKind decision (snapshotRead_more held' more)
      (free.modRestart _)
    rw [← modArming, modArming_held held] at leaves
    exact leaves
  · exact armingRefused_of_leaves (completeAccess_leaves_of_effect carries ofKind decision
      (snapshotRead_moved held' last moved) (free.modRestart _))
  · rw [snapshotRead_still held' last still, if_neg (by simp [invalid])] at step
    rw [step]
    exact coldResult_coldState .armedColdTrackLost _ (returned s a) ..
  · rw [snapshotRead_still held' last still, if_pos valid] at step
    rw [step]
    have warm := warmState_of_follows (decided_follows s.blk.path.requests decision
      (warmResult (decodeSnapshot (y.snapshot ++ readBy s a)) { y with snapshot := y.snapshot ++ readBy s a }
        (returned s a)))
    have position := corrected_of_snapshotValid valid
    refine ⟨warm.cfg, ?_, ?_, ?_, ?_, warm.part, warm.shapes, ?_, ?_, ?_, ?_, ?_, warm.postIndex, warm.takeIndex,
      warm.posted, warm.cues, warm.queue, warm.writeIndex, warm.generation, warm.mapNext⟩
    · rw [warm.motion]; exact position
    · rw [warm.motion]; rfl
    · rw [warm.motion]; rfl
    · rw [warm.motion]; rfl
    all_goals rw [warm.track]; rfl

end Sys2Proof.Machine
end

section
/-! What a step is, by the state of the queue, and the canonical form of job memory in every step (00 section 0.7.1,
log 1). -/

namespace Sys2Proof.Machine

/-! ### The queue and the step -/

section Queue
variable {s : State}

/-- With a command waiting, the step is that command on the state with the queue's rest. -/
theorem step_of_pending {c : Instr} {rest : List Instr} (waiting : s.pending = c :: rest) :
    step s = exec c (s.setPending rest) := by
  rw [step, waiting]

/-- With no command waiting the block idles (log 4). -/
theorem step_of_empty (empty : s.pending = []) : step s = .next s := by
  rw [step, empty]

/-- What a step that answers is: the idle step, or the front command's. -/
theorem step_next_cases {t : State} (h : step s = .next t) :
    (s.pending = [] ∧ t = s) ∨
      ∃ c rest, s.pending = c :: rest ∧ exec c (s.setPending rest) = .next t := by
  cases queue : s.pending with
  | nil =>
    rw [step_of_empty queue] at h
    cases h
    exact .inl ⟨rfl, rfl⟩
  | cons c rest =>
    rw [step_of_pending queue] at h
    exact .inr ⟨c, rest, rfl, h⟩

end Queue

/-- Settles O1, by the two forms of the queue. -/
theorem stepRunsTheFrontCommand : Obligations.StepRunsTheFrontCommand :=
  ⟨fun _ _ _ waiting => step_of_pending waiting, fun _ empty => step_of_empty empty⟩

/-! ### The canonical form of job memory -/

/-- A host word carried, dropped words and words read with it, keeps the canonical form. -/
theorem wf_carryWord (w : CarriedWord) {m : Memory} (canonical : m.wf = true) : (carryWord w m).wf = true := by
  by_cases unstored : w.judged ≠ .pass ∨ w.word = none
  · rw [carryWord_unstored unstored]
    exact canonical
  · obtain ⟨pass, stores⟩ := not_or.mp unstored
    obtain ⟨v, word⟩ := Option.ne_none_iff_exists'.mp stores
    rw [carryWord_passed (not_not.mp pass) word]
    exact wf_writeWord _ _ _ _ canonical

/-- Every way in which a step may change memory keeps the canonical form. -/
theorem MemStep.wf {s t : State} (change : MemStep s t) (canonical : s.mem.wf = true) : t.mem.wf = true := by
  obtain same | ⟨w, _, word⟩ | ⟨a, _, _, access⟩ := change
  · rw [same]
    exact canonical
  · rw [word]
    exact wf_carryWord w canonical
  · rw [access]
    exact wf_carry _ a canonical

/-- Settles O5: an idle step keeps memory, and a command changes it by nothing but the word or the access that the port
carries. -/
theorem memoryStaysCanonical : Obligations.MemoryStaysCanonical := by
  intro s t canonical h
  obtain ⟨_, rfl⟩ | ⟨c, rest, _, run⟩ := step_next_cases h
  · exact canonical
  · obtain ⟨change, _⟩ := exec_outside c (s.setPending rest) t run
    exact change.wf canonical

end Sys2Proof.Machine
end
